-- ==== Sys2Proof/Word.lean ====
section
/-! DEFINITION. The values and types every rule uses (spec 00_scope.md R15, R16, R17): bytes, port
words, line levels and modes, the names of the eight durations, the four operations, events and
traces. -/

namespace Sys2Proof

/-- "an 8-bit unsigned value" (R15); bit 0 is the least significant. -/
abbrev Byte := BitVec 8

/-- A command word, format C (30_encoding.md R80). -/
abbrev CommandWord := BitVec 10

/-- A slot request, format S (R86). -/
abbrev SlotWord := BitVec 2

/-- A field of `TimingConfig`: `W_T` = 16 bits of microseconds (R13, 10_state.md R30). -/
abbrev Micros := BitVec 16

/-- The level of the line (R15). -/
inductive Level where
  | low
  | high
  deriving DecidableEq, Repr, Inhabited

/-- The mode of the master's line driver (R15, R22). -/
inductive Mode where
  | driveLow
  | float
  deriving DecidableEq, Repr, Inhabited

/-- The four public operations, in the order of the table of R82. -/
inductive Operation where
  | reset
  | readByte
  | writeByte
  | configure
  deriving DecidableEq, Repr, Inhabited

/-- The names of the eight durations of `TimingConfig`, in the order of R10. -/
inductive Duration where
  | resetPulse
  | presenceWait
  | postPresence
  | slotInit
  | hold
  | recovery
  | readInit
  | readSample
  deriving DecidableEq, Repr, Inhabited

/-- What the engine does on its interfaces (R17). `delay k n` lasts `n` microseconds. -/
inductive Event where
  | line (m : Mode)
  | delay (k : Duration) (n : Nat)
  | sample (l : Level)
  | irqSuspend
  | irqResume
  | accept (c : CommandWord)
  | complete (r : Byte)
  deriving DecidableEq, Repr

/-- Pairs (time stamp, event) in the order the engine performed them (R17). -/
abbrev Trace := List (Nat × Event)

end Sys2Proof
end

