-- ==== Sys2Proof/Syntax.lean ====
section
/-! DEFINITION. The instructions: one constructor for each row of spec/opcode_table.json
(spec 30_encoding.md R82, R86). -/

namespace Sys2Proof

/-- An operation with the fields of its word. The `data` of `reset`, `readByte` and `configure` and
the bit of `readBit` are ignored (R83, R86), but they are part of the word, and `ACCEPT` records the
word as it stands (95_test_vectors.md V12). -/
inductive Instr where
  /-- RESET, `00xxxxxxxx` (41_reset_presence.md R120). -/
  | reset (data : Byte)
  /-- READ_BYTE, `01xxxxxxxx` (44_byte_composer.md R155). -/
  | readByte (data : Byte)
  /-- WRITE_BYTE, `10dddddddd` (44_byte_composer.md R151). -/
  | writeByte (value : Byte)
  /-- CONFIGURE, `11xxxxxxxx` (45_configure.md R170). -/
  | configure (data : Byte)
  /-- WRITE_BIT, `0b`, internal (42_write_bit_slot.md R130). -/
  | writeBit (bit : Bool)
  /-- READ_BIT, `1x`, internal (43_read_bit_slot.md R140). -/
  | readBit (ignored : Bool)
  deriving DecidableEq, Repr

end Sys2Proof
end

