-- ==== Sys2Proof/Decode.lean ====
section
/-! DEFINITION. Decoding and encoding of command words (format C) and slot requests (format S),
spec 30_encoding.md R80 to R86. -/

namespace Sys2Proof

/-- A word at one of the engine's two request ports: the command port (R80) and the internal slot
request (R86). -/
inductive PortWord where
  | command (c : CommandWord)
  | slot (r : SlotWord)
  deriving DecidableEq, Repr

/-! ### Fields -/

/-- `op = cmd[9:8]` (R80). -/
def commandOp (c : CommandWord) : BitVec 2 := c.extractLsb' 8 2

/-- `data = cmd[7:0]` (R80). -/
def commandData (c : CommandWord) : Byte := c.extractLsb' 0 8

/-- The operation of an `op` value (R82). -/
def operationOf (op : BitVec 2) : Operation :=
  match op.toNat with
  | 0 => .reset
  | 1 => .readByte
  | 2 => .writeByte
  | _ => .configure

/-- The `op` value of an operation (R82). -/
def opCode : Operation → BitVec 2
  | .reset => 0b00
  | .readByte => 0b01
  | .writeByte => 0b10
  | .configure => 0b11

/-- `op ++ data`, `op` in the more significant position (R80). -/
def commandWord (o : Operation) (data : Byte) : CommandWord := opCode o ++ data

/-- `kind ++ bit` (R86); `kind` is `false` for a write slot and `true` for a read slot. -/
def slotWord (kind bit : Bool) : SlotWord := BitVec.ofBool kind ++ BitVec.ofBool bit

/-! ### Words -/

/-- Every command word selects exactly one of the four operations (R82, R84). -/
def decodeCommand (c : CommandWord) : Instr :=
  match operationOf (commandOp c) with
  | .reset => .reset (commandData c)
  | .readByte => .readByte (commandData c)
  | .writeByte => .writeByte (commandData c)
  | .configure => .configure (commandData c)

/-- The slot of a slot request: `kind` is bit 1, `bit` is bit 0 (R86). -/
def decodeSlot (r : SlotWord) : Instr :=
  if r.getLsbD 1 then .readBit (r.getLsbD 0) else .writeBit (r.getLsbD 0)

/-- The instruction of a word at a port: no word is illegal (R84). -/
def decode : PortWord → Instr
  | .command c => decodeCommand c
  | .slot r => decodeSlot r

/-- The word of an instruction, from the same tables (R82, R86). -/
def encode : Instr → PortWord
  | .reset data => .command (commandWord .reset data)
  | .readByte data => .command (commandWord .readByte data)
  | .writeByte value => .command (commandWord .writeByte value)
  | .configure data => .command (commandWord .configure data)
  | .writeBit bit => .slot (slotWord false bit)
  | .readBit ignored => .slot (slotWord true ignored)

/-! ### Bytes

The words are wires and the spec stores them nowhere (20_memory.md R61). For the byte interface the
model lays a slot request out as one byte, and a command word as two bytes, the low byte first; the
bits above a word's width do not exist (log 12). -/

/-- Why bytes are no word. -/
inductive DecodeError where
  /-- No byte at all. -/
  | empty
  /-- One byte with a bit above bit 1: a slot request is 2 bits (R86). -/
  | slotTooWide
  /-- Two bytes with a bit above bit 9: a command word is 10 bits (R80). -/
  | commandTooWide
  /-- More than two bytes: there is one command length (R90). -/
  | tooLong
  deriving DecidableEq, Repr

/-- The word that bytes hold. -/
def wordOfBytes : List Byte → Except DecodeError PortWord
  | [] => .error .empty
  | [b] => if b.toNat < 4 then .ok (.slot (BitVec.ofNat 2 b.toNat)) else .error .slotTooWide
  | [lo, hi] =>
    if hi.toNat < 4 then .ok (.command (BitVec.ofNat 10 (lo.toNat + 256 * hi.toNat)))
    else .error .commandTooWide
  | _ :: _ :: _ :: _ => .error .tooLong

/-- The bytes of a word. -/
def bytesOfWord : PortWord → List Byte
  | .slot r => [BitVec.ofNat 8 r.toNat]
  | .command c => [BitVec.ofNat 8 c.toNat, BitVec.ofNat 8 (c.toNat / 256)]

/-- Total on any bytes; what is no word is rejected by name. -/
def decodeBytes (bs : List Byte) : Except DecodeError Instr :=
  match wordOfBytes bs with
  | .ok w => .ok (decode w)
  | .error e => .error e

/-- The bytes of an instruction's word. -/
def encodeBytes (i : Instr) : List Byte := bytesOfWord (encode i)

/-- The bytes of a number that `nbits` bits of the opcode table lay out: one byte for a row of
format S, two for a row of format C; a number they cannot hold has none. -/
def tableBytes (nbits w : Nat) : Option (List Byte) :=
  if nbits ≤ 8 then
    if w < 256 then some [BitVec.ofNat 8 w] else none
  else
    if w < 65536 then some [BitVec.ofNat 8 w, BitVec.ofNat 8 (w / 256)] else none

/-- The instruction that the decoder reads from a word of the opcode table's numbering. -/
def decodeTableWord (nbits w : Nat) : Option Instr :=
  match tableBytes nbits w with
  | some bs =>
    match decodeBytes bs with
    | .ok i => some i
    | .error _ => none
  | none => none

/-! ### The opcode table (spec/opcode_table.json) -/

/-- One row: a word of its format belongs to it when the word under the mask is the match. -/
structure Row where
  mnemonic : String
  width : Nat
  mask : Nat
  fixed : Nat
  deriving DecidableEq, Repr

/-- The row of an instruction (R82, R86). -/
def rowOf : Instr → Row
  | .reset _ => { mnemonic := "RESET", width := 10, mask := 0x300, fixed := 0x000 }
  | .readByte _ => { mnemonic := "READ_BYTE", width := 10, mask := 0x300, fixed := 0x100 }
  | .writeByte _ => { mnemonic := "WRITE_BYTE", width := 10, mask := 0x300, fixed := 0x200 }
  | .configure _ => { mnemonic := "CONFIGURE", width := 10, mask := 0x300, fixed := 0x300 }
  | .writeBit _ => { mnemonic := "WRITE_BIT", width := 2, mask := 0b10, fixed := 0b00 }
  | .readBit _ => { mnemonic := "READ_BIT", width := 2, mask := 0b10, fixed := 0b10 }

/-- A word's width in bits. -/
def PortWord.width : PortWord → Nat
  | .command _ => 10
  | .slot _ => 2

/-- A word as a number, bit 0 the least significant. -/
def PortWord.toNat : PortWord → Nat
  | .command c => c.toNat
  | .slot r => r.toNat

/-- A word belongs to a row. -/
def Row.covers (r : Row) (w : PortWord) : Bool :=
  r.width == w.width && w.toNat &&& r.mask == r.fixed

end Sys2Proof
end

