-- ==== Sys2Proof/Machine/Flags.lean ====
section
/-! DEFINITION. The one-bit results: the level as a bit and as presence (spec 44_byte_composer.md
R159 (6)). There are no condition codes (10_state.md R37). -/

namespace Sys2Proof.Machine

/-- A read slot's bit: `HIGH` is 1, `LOW` is 0; no inversion (43_read_bit_slot.md R141). -/
def bitOfLevel : Level → Bool
  | .low => false
  | .high => true

/-- RESET's result: present exactly when the line was sampled `LOW` (41_reset_presence.md R121). -/
def presentOfLevel : Level → Bool
  | .low => true
  | .high => false

end Sys2Proof.Machine
end

