-- ==== Sys2Proof/Machine/Operands.lean ====
section
/-! DEFINITION. The bits of a byte (spec 30_encoding.md R88, 44_byte_composer.md R152, R156, R159). -/

namespace Sys2Proof.Machine

/-- `v[i] = (v div 2^i) mod 2` (R152); for an index 0 to 7. -/
def bitAt (v : Byte) (i : Nat) : Bool := v.toNat / 2 ^ i % 2 == 1

/-- `v[i] <- b`: changes bit `i` only (R156, R159 (2)). -/
def setBit (v : Byte) (i : Nat) (b : Bool) : Byte :=
  (v &&& ~~~((1 : Byte) <<< i)) ||| ((BitVec.ofBool b).setWidth 8 <<< i)

end Sys2Proof.Machine
end

