-- ==== Sys2Proof/Config.lean ====
section
/-! DEFINITION. What an instance of the hardware fixes (the timing configuration and the delay
tolerance, spec 00_scope.md R10 to R14, 40_sequencer_primitives.md R111) and the free values: opaque
constants without a body, of which nothing can be proved. -/

namespace Sys2Proof

/-- `TimingConfig`, the ports `cfg_t[0..7]` (R10, 10_state.md R30): every value of every field is
legal to the hardware. -/
structure TimingConfig where
  resetPulse : Micros
  presenceWait : Micros
  postPresence : Micros
  slotInit : Micros
  hold : Micros
  recovery : Micros
  readInit : Micros
  readSample : Micros
  deriving DecidableEq, Repr, Inhabited

/-- The field of a name. -/
def TimingConfig.get (c : TimingConfig) : Duration → Micros
  | .resetPulse => c.resetPulse
  | .presenceWait => c.presenceWait
  | .postPresence => c.postPresence
  | .slotInit => c.slotInit
  | .hold => c.hold
  | .recovery => c.recovery
  | .readInit => c.readInit
  | .readSample => c.readSample

/-- `STRETCH` (R13, R111): whether a delay performed while interruptions are enabled may last
longer than its tolerance. -/
inductive Stretch where
  | none
  | unbounded
  deriving DecidableEq, Repr, Inhabited

/-- The delay tolerance of an instance: `JITTER`, a natural number of microseconds that is "at most
2 by the source's class" (R13), and `STRETCH` (R13, R111). -/
structure Tolerance where
  jitter : Fin 3
  stretch : Stretch
  deriving DecidableEq, Repr, Inhabited

/-- The nominal model (R111, R230): `JITTER = 0`, `STRETCH = none`. -/
def Tolerance.nominal : Tolerance := { jitter := 0, stretch := .none }

/-- The registers that a hardware reset leaves unspecified (10_state.md R36). -/
structure Unspecified where
  op : Operation
  pos : BitVec 7
  bitcnt : BitVec 3
  sh : Byte
  present : Bool
  rsp : Byte
  dly : BitVec 16
  deriving DecidableEq, Repr, Inhabited

/-- FREE VALUE (log 1): the durations of the instance; the spec gives them no value (R10 to R12). -/
opaque Config.timing : TimingConfig

/-- FREE VALUE (log 13): the environment's answer to a sample, from the trace so far, the time and
the number of the draw; "under no law" (20_memory.md R57). -/
opaque Config.envLevel : Trace → Nat → Nat → Level

/-- FREE VALUE (log 14): the number that settles how long a delay lasts within its tolerance, one
for each draw (R111). -/
opaque Config.freeDelay : Nat → Nat

/-- FREE VALUE (log 20): the registers after a hardware reset, for each draw (R36, R210). -/
opaque Config.unspecified : Nat → Unspecified

end Sys2Proof
end

