-- ==== Sys2Proof/Machine/State.lean ====
section
/-! DEFINITION. The state of the machine: everything the spec gives it (10_state.md R22 to R36) and
the model's own fields for the host, the other agents and the environment. -/

namespace Sys2Proof.Machine

/-- How the environment of the line answers samples (20_memory.md R57, R58; log 13). -/
inductive Environment where
  /-- The unconstrained oracle (R57). -/
  | free
  /-- The scripted oracle (R58): the answers still to come; after the last, the oracle is free. -/
  | script (answers : List Level)
  /-- A timed script (R58, R142): the level before any change, and changes in order of time; a
  change at `t0` is seen by a sample at `t` exactly when `t0 ≤ t`. -/
  | timed (initial : Level) (changes : List (Nat × Level))
  deriving DecidableEq, Repr

/-- A move of one of the agents (10_state.md R20) between two micro-steps (log 6, log 25). -/
inductive Move where
  /-- The engine makes its one enabled step (40_sequencer_primitives.md R107); when idle, it accepts
  the command that the host presents (10_state.md R33). -/
  | engine
  /-- The host has one more command word to issue (R33, R91). -/
  | present (c : CommandWord)
  /-- The host suspends interruptions on its own account (R23, R222). -/
  | hostSuspend
  /-- The host resumes interruptions on its own account (R23). -/
  | hostResume
  /-- An asynchronous interruption of the host arrives (60_exceptions.md R183, R186; log 24). -/
  | interruption
  /-- The platform changes one `cfg_t`, which must not happen in a run (10_state.md R30,
  60_exceptions.md R199). -/
  | setDuration (k : Duration) (n : Micros)
  /-- The platform asserts and releases `rst_n` (70_reset_and_hazards.md R210, R211). -/
  | hardwareReset
  /-- Something other than the engine sets the mode of the master's driver (R199 (3)). -/
  | secondWriter (m : Mode)
  deriving DecidableEq, Repr

/-- The machine stops with a fault: never. The engine raises no exception and its step function has
no fault outcome (60_exceptions.md R180), so there is no reason to list (log 23). -/
inductive Fault where
  deriving DecidableEq, Repr

/-- Runs the spec gives no meaning to (60_exceptions.md R199, 93_implementation_defined.md U8). Each
is safe: the model stops where the hardware does something that the spec declines to say. -/
inductive Refusal where
  /-- Raised by an arm of `exec` for an instruction that has no meaning yet; no arm does. Safe. -/
  | notModelled (mnemonic : String)
  /-- Raised by the platform's move `setDuration` while busy (R199 (1), U9). Safe. -/
  | timingChangedWhileBusy
  /-- Raised by the platform's move `setDuration` while idle: the durations are constant until the end
  of the run (R30, 20_memory.md R70, R212 (3); log 17). Safe. -/
  | timingChangedWhileIdle
  /-- Raised by the platform's move `hardwareReset` while busy (R199 (2), R211, U11). Safe. -/
  | hardwareResetWhileBusy
  /-- Raised by the move `secondWriter` (R199 (3), R197, U12; log 19). Safe. -/
  | secondWriterOfLine
  /-- Raised by the host's moves `hostSuspend` and `hostResume` while busy (R199 (3), U12; log 18).
  Safe. -/
  | secondWriterOfIe
  /-- Raised by a slot request that stands on its own while an operation is in progress (U8, R221;
  log 11). Safe. -/
  | slotRequestedWhileBusy
  deriving DecidableEq, Repr

/-- The machine. -/
@[ext]
structure State where
  /-- R22: the mode of the master's line driver; port `line_drive_low`. -/
  lineMode : Mode
  /-- R23: the interruption-enable bit of the host's core. -/
  ie : Bool
  /-- R24: an operation is in progress; `cmd_ready` is its negation. -/
  busy : Bool
  /-- R24: which operation; two bits with the values of R82. -/
  op : Operation
  /-- R27: the index of the next micro-step. -/
  pos : BitVec 7
  /-- R26: the bit index of a byte operation. -/
  bitcnt : BitVec 3
  /-- R25: the data register. -/
  sh : Byte
  /-- R28: the result of RESET. -/
  present : Bool
  /-- R28: the response register. -/
  rsp : Byte
  /-- R29: the down-counter of the delay timer. -/
  dly : BitVec 16
  /-- R32, R34: 1 at the instant an operation completes (log 16). -/
  rspValid : Bool
  /-- R32: strobe, 1 at the instant of a `SuspendIrq` (log 16). -/
  irqSuspend : Bool
  /-- R32: strobe, 1 at the instant of a `ResumeIrq` (log 16). -/
  irqResume : Bool
  /-- R30: the static inputs `cfg_t[0..7]`. -/
  cfg : TimingConfig
  /-- R13, R111: the delay tolerance, constant over a run. -/
  tolerance : Tolerance
  /-- R31: the time in microseconds (model only). -/
  now : Nat
  /-- R31: the events so far (model only). -/
  trace : Trace
  /-- The model's own (log 8): the words the host still has to issue; `cmd_valid` is "not empty" and
  `cmd` is the first. -/
  program : List CommandWord
  /-- The model's own (log 10): a slot request standing on its own. -/
  slotReq : Option SlotWord
  /-- The model's own (log 6): the moves of the agents still to come. -/
  schedule : List Move
  /-- The model's own (log 13): how the environment answers. -/
  env : Environment
  /-- The model's own (log 13, log 14, log 20): how many free values have been drawn. -/
  draws : Nat
  deriving DecidableEq, Repr

/-- The machine right after the hardware reset (10_state.md R36, 70_reset_and_hazards.md R210). The
values R36 leaves unspecified are named in log 2, `ie` in log 3, the durations in log 1, the
tolerance in log 4, the model's own fields in log 5. -/
def State.reset : State where
  lineMode := .float
  ie := true
  busy := false
  op := .reset
  pos := 0
  bitcnt := 0
  sh := 0
  present := false
  rsp := 0
  dly := 0
  rspValid := false
  irqSuspend := false
  irqResume := false
  cfg := Config.timing
  tolerance := .nominal
  now := 0
  trace := []
  program := []
  slotReq := none
  schedule := []
  env := .free
  draws := 0

end Sys2Proof.Machine
end

