-- ==== Sys2Proof/Machine/Ops.lean ====
section
/-! DEFINITION. The named operations every meaning is made of: the five primitives of the
`bit_slot_sequencer` (spec 40_sequencer_primitives.md R101 to R106), acceptance and completion
(10_state.md R33, R34), and the sequencer position (R107). There is no trap and no trap return to
share (60_exceptions.md R187, R188). -/

namespace Sys2Proof.Machine

/-! ### Ports (10_state.md R32) -/

/-- `cmd_ready` equals `not busy`. -/
def State.cmdReady (s : State) : Bool := !s.busy

/-- `line_drive_low` is 1 for `DRIVE_LOW` and 0 for `FLOAT`. -/
def State.lineDriveLow (s : State) : Bool := s.lineMode == .driveLow

/-- `rsp_valid`, `irq_suspend` and `irq_resume` last for one event (log 16). -/
def State.lowerStrobes (s : State) : State :=
  { s with rspValid := false, irqSuspend := false, irqResume := false }

/-- Append an event at the present time (R17, R31). -/
def State.emit (s : State) (e : Event) : State :=
  { s.lowerStrobes with trace := s.trace ++ [(s.now, e)] }

/-! ### `SetLine`, `SuspendIrq`, `ResumeIrq` (R101, R105, R106) -/

/-- `SetLine(m)`; recorded even when the mode is already `m`. -/
def State.setLine (s : State) (m : Mode) : State :=
  { s.emit (.line m) with lineMode := m }

/-- `SuspendIrq()`: reads nothing and saves nothing. -/
def State.suspendIrq (s : State) : State :=
  { s.emit .irqSuspend with ie := false, irqSuspend := true }

/-- `ResumeIrq()`: enables interruptions whatever `ie` was. -/
def State.resumeIrq (s : State) : State :=
  { s.emit .irqResume with ie := true, irqResume := true }

/-! ### `Delay` (R103, R111) -/

/-- A length within `jitter` of `n` and not below 0 (R111); `free` chooses which (log 14). With
`jitter = 0` there is one such length. -/
def lengthNear (jitter n free : Nat) : Nat :=
  if jitter = 0 then n else (n - jitter) + free % (n + jitter - (n - jitter) + 1)

/-- A length not below `n - jitter`, with no upper bound (R111); `free` chooses which (log 14). -/
def lengthFrom (jitter n free : Nat) : Nat := (n - jitter) + free

/-- How long a delay of `n` lasts: within `JITTER` of `n`, but with `STRETCH = unbounded` and
interruptions enabled with no upper bound (R111). -/
def delayLength (tol : Tolerance) (ie : Bool) (n free : Nat) : Nat :=
  match tol.stretch, ie with
  | .unbounded, true => lengthFrom tol.jitter.val n free
  | .unbounded, false => lengthNear tol.jitter.val n free
  | .none, _ => lengthNear tol.jitter.val n free

/-- Load the timer with `n` (10_state.md R29) and draw the length, which the trace records. -/
def State.startTimer (s : State) (k : Duration) (length : Nat) : State :=
  { s.emit (.delay k length) with dly := s.cfg.get k, draws := s.draws + 1 }

/-- The timer has counted down to zero and `length` microseconds have passed (log 15). -/
def State.expireTimer (s : State) (length : Nat) : State :=
  { s with now := s.now + length, dly := 0 }

/-- How long a delay `k` begun now lasts: one draw for each delay (R111). -/
def State.drawLength (s : State) (k : Duration) : Nat :=
  delayLength s.tolerance s.ie (s.cfg.get k).toNat (Config.freeDelay s.draws)

/-- `Delay(TimingConfig.k)`. -/
def State.delay (s : State) (k : Duration) : State :=
  (s.startTimer k (s.drawLength k)).expireTimer (s.drawLength k)

/-! ### `SampleLine` (R104, 20_memory.md R57, R58) -/

/-- The level a timed script shows at time `t`: that of the last change at or before `t`. -/
def levelAt (initial : Level) (changes : List (Nat × Level)) (t : Nat) : Level :=
  changes.foldl (fun l c => if c.1 ≤ t then c.2 else l) initial

/-- The environment's answer, consulted in `FLOAT` only. -/
def State.answer (s : State) : Level × State :=
  match s.env with
  | .script (l :: rest) => (l, { s with env := .script rest })
  | .script [] => (Config.envLevel s.trace s.now s.draws, { s with draws := s.draws + 1 })
  | .free => (Config.envLevel s.trace s.now s.draws, { s with draws := s.draws + 1 })
  | .timed initial changes => (levelAt initial changes s.now, s)

/-- What is on the line: `LOW` while the master drives, else the environment's answer (R57). -/
def State.readLine (s : State) : Level × State :=
  match s.lineMode with
  | .driveLow => (.low, s)
  | .float => s.answer

/-- `SampleLine()`: one read of the line, at one instant. -/
def State.sampleLine (s : State) : Level × State :=
  (s.readLine.1, s.readLine.2.emit (.sample s.readLine.1))

/-- `SAMPLE(TO_PRESENCE)` (R107, R121). -/
def State.samplePresence (s : State) : State :=
  { s.sampleLine.2 with present := presentOfLevel s.sampleLine.1 }

/-- `SAMPLE(TO_BIT)` (R107, R141): the level becomes bit `bitcnt` of `sh`. -/
def State.sampleBit (s : State) : State :=
  { s.sampleLine.2 with sh := setBit s.sh s.bitcnt.toNat (bitOfLevel s.sampleLine.1) }

/-! ### Acceptance and completion (10_state.md R33, R34) -/

/-- `sh` at acceptance (R25, R33). -/
def shiftAtAcceptance (o : Operation) (data old : Byte) : Byte :=
  match o with
  | .writeByte => data
  | .readByte => 0
  | .reset => old
  | .configure => old

/-- Acceptance of a command word (R33). It takes no time. -/
def State.accept (s : State) (c : CommandWord) : State :=
  { s.emit (.accept c) with
    busy := true
    op := operationOf (commandOp c)
    pos := 0
    bitcnt := 0
    sh := shiftAtAcceptance (operationOf (commandOp c)) (commandData c) s.sh }

/-- The response word, format P (30_encoding.md R85). -/
def State.response (s : State) : Byte :=
  match s.op with
  | .reset => (BitVec.ofBool s.present).setWidth 8
  | .readByte => s.sh
  | .writeByte => 0
  | .configure => 0

/-- Completion (R34). It takes no time. -/
def State.complete (s : State) : State :=
  { s.emit (.complete s.response) with rsp := s.response, rspValid := true, busy := false }

/-! ### The sequencer position (10_state.md R26, R27; R107) -/

/-- The operation counts its bits (R26). -/
def isByteOperation : Operation → Bool
  | .readByte => true
  | .writeByte => true
  | .reset => false
  | .configure => false

/-- `pos <- pos + n` after `n` micro-steps; in a byte operation `bitcnt <- pos div 8` while the new
`pos` is below 64 (R107, 90_conflicts.md C10). -/
def State.advance (s : State) (n : BitVec 7) : State :=
  { s with
    pos := s.pos + n
    bitcnt :=
      if isByteOperation s.op && (s.pos + n).toNat < 64 then
        BitVec.ofNat 3 ((s.pos + n).toNat / 8)
      else s.bitcnt }

/-- A command is accepted only by an idle engine; a busy engine accepts nothing and the command
waits (R33; log 9). `t` is the state after the whole operation. -/
def State.whenReady (s t : State) : Host.Outcome State Fault Refusal :=
  .next (if s.busy then s else t)

end Sys2Proof.Machine
end

