-- ==== Sys2Proof/Machine/Sequencer.lean ====
section
/-! DEFINITION. The `bit_slot_sequencer`: the micro-steps, the microsequences and the engine's step
relation (spec 40_sequencer_primitives.md R100, R107, R108). -/

namespace Sys2Proof.Machine

/-- Where a sample goes (R100). -/
inductive SampleTarget where
  | toPresence
  | toBit
  deriving DecidableEq, Repr

/-- A micro-step (R100). It has no encoding (30_encoding.md R93). -/
inductive MicroStep where
  | line (m : Mode)
  | lineIfBit (m : Mode)
  | delay (k : Duration)
  | sample (d : SampleTarget)
  | irqSuspend
  | irqResume
  deriving DecidableEq, Repr

/-- `WSLOT` (R108). -/
def writeSlotSteps : List MicroStep :=
  [.irqSuspend, .line .driveLow, .delay .slotInit, .lineIfBit .float, .delay .hold, .line .float,
    .irqResume]

/-- `RSLOT` (R108). -/
def readSlotSteps : List MicroStep :=
  [.irqSuspend, .line .driveLow, .delay .readInit, .line .float, .delay .readSample,
    .sample .toBit, .irqResume]

/-- `prog(op, data)` (R108): it depends on the operation only. -/
def microsequence : Operation → List MicroStep
  | .reset =>
    [.line .driveLow, .delay .resetPulse, .line .float, .delay .presenceWait, .sample .toPresence,
      .delay .postPresence]
  | .writeByte => (List.replicate 8 (writeSlotSteps ++ [.delay .recovery])).flatten
  | .readByte => (List.replicate 8 (readSlotSteps ++ [.delay .recovery])).flatten
  | .configure => []

/-- One micro-step; `bit` is the bit being written. `LINE_IF_BIT` of a 0 performs nothing (R107). -/
def State.perform (s : State) (bit : Bool) : MicroStep → State
  | .line m => s.setLine m
  | .lineIfBit m => if bit then s.setLine m else s
  | .delay k => s.delay k
  | .sample .toPresence => s.samplePresence
  | .sample .toBit => s.sampleBit
  | .irqSuspend => s.suspendIrq
  | .irqResume => s.resumeIrq

/-- The bit a write slot sends: `sh[bitcnt]` (R107). -/
def State.currentBit (s : State) : Bool := bitAt s.sh s.bitcnt.toNat

/-- The engine's one enabled step (R107): acceptance when idle and a command is presented,
completion when `pos` is the length of the microsequence, else one micro-step. The word leaves the
host's program when it is accepted (log 8). With `pos` beyond the length no step is enabled
(log 22). -/
def State.engineStep (s : State) : State :=
  if s.busy then
    match (microsequence s.op)[s.pos.toNat]? with
    | some m => (s.perform s.currentBit m).advance 1
    | none => if s.pos.toNat = (microsequence s.op).length then s.complete else s
  else
    match s.program with
    | c :: rest => { s with program := rest }.accept c
    | [] => s.lowerStrobes

/-- `n` steps of the engine with no other agent's move between them. -/
def State.engineSteps (s : State) : Nat → State
  | 0 => s
  | n + 1 => s.engineStep.engineSteps n

end Sys2Proof.Machine
end

