-- ==== Sys2Proof/Machine/Agents.lean ====
section
/-! DEFINITION. The moves of the agents other than a whole instruction of the engine (spec
10_state.md R20, 60_exceptions.md R197, R199, 70_reset_and_hazards.md R210), and what the engine
fetches when no move is pending. -/

namespace Sys2Proof.Machine

/-- The hardware reset of an idle engine (R210, R36): what R36 leaves unspecified takes a free value
(log 20); `ie`, the inputs, the time and the trace are not written. -/
def State.hardwareReset (s : State) : State :=
  let u := Config.unspecified s.draws
  { s.lowerStrobes with
    lineMode := .float
    busy := false
    op := u.op
    pos := u.pos
    bitcnt := u.bitcnt
    sh := u.sh
    present := u.present
    rsp := u.rsp
    dly := u.dly
    draws := s.draws + 1 }

/-- A move that the spec gives a meaning only while no operation is in progress (R199). -/
def State.whenIdle (s t : State) (r : Refusal) : Host.Outcome State Fault Refusal :=
  if s.busy then .refused r else .next t

/-- One move of an agent. Every move takes zero time (log 25). -/
def agentMove (m : Move) (s : State) : Host.Outcome State Fault Refusal :=
  match m with
  | .engine => .next s.engineStep
  | .present c => .next { s.lowerStrobes with program := s.program ++ [c] }
  | .hostSuspend => s.whenIdle { s.lowerStrobes with ie := false } .secondWriterOfIe
  | .hostResume => s.whenIdle { s.lowerStrobes with ie := true } .secondWriterOfIe
  | .interruption => .next s.lowerStrobes
  | .setDuration _ _ =>
    .refused (if s.busy then .timingChangedWhileBusy else .timingChangedWhileIdle)
  | .hardwareReset => s.whenIdle s.hardwareReset .hardwareResetWhileBusy
  | .secondWriter _ => .refused .secondWriterOfLine

/-- What the engine turns to when no other agent's move is pending. -/
inductive Fetched where
  /-- A request to run: a slot request, or the word the host presents. -/
  | run (w : PortWord)
  /-- An operation is in progress: its next step. -/
  | proceed
  /-- A slot request stands while an operation is in progress (93_implementation_defined.md U8). -/
  | clash
  /-- Idle with nothing to do (60_exceptions.md R196). -/
  | idle
  deriving DecidableEq, Repr

/-- Fetching: there is no memory to fetch from (20_memory.md R61); the word is at a port. -/
def State.fetch (s : State) : Fetched :=
  match s.busy, s.slotReq, s.program with
  | true, some _, _ => .clash
  | true, none, _ => .proceed
  | false, some r, _ => .run (.slot r)
  | false, none, c :: _ => .run (.command c)
  | false, none, [] => .idle

/-- The state in which a fetched request runs: the request has been taken from its port (log 8,
log 10). -/
def State.takeRequest (s : State) : PortWord → State
  | .slot _ => { s with slotReq := none }
  | .command _ => { s with program := s.program.drop 1 }

end Sys2Proof.Machine
end

