-- ==== Sys2Proof/Machine/Slots.lean ====
section
/-! DEFINITION. WRITE_BIT and READ_BIT, the `single_bit_write_slot` and the `single_bit_read_slot`
(spec 42_write_bit_slot.md, 43_read_bit_slot.md). -/

namespace Sys2Proof.Machine

/-- Steps W0 to W6 (R130). -/
def State.writeSlot (s : State) (bit : Bool) : State :=
  let s := s.suspendIrq
  let s := s.setLine .driveLow
  let s := s.delay .slotInit
  let s := if bit then s.setLine .float else s
  let s := s.delay .hold
  let s := s.setLine .float
  s.resumeIrq

/-- Steps B0 to B6 (R140). -/
def State.readSlot (s : State) : State :=
  let s := s.suspendIrq
  let s := s.setLine .driveLow
  let s := s.delay .readInit
  let s := s.setLine .float
  let s := s.delay .readSample
  let s := s.sampleBit
  s.resumeIrq

/-- WRITE_BIT (R130): a slot has no acceptance and no completion of its own (95_test_vectors.md
section 3.2), and its recovery delay is the caller's (R134). -/
def execWriteBit (bit : Bool) (s : State) : Host.Outcome State Fault Refusal :=
  .next (s.writeSlot bit)

/-- READ_BIT (R140): bit 0 of the request is ignored (30_encoding.md R86); the sampled bit is stored
in `sh[bitcnt]`. -/
def execReadBit (_ignored : Bool) (s : State) : Host.Outcome State Fault Refusal :=
  .next s.readSlot

end Sys2Proof.Machine
end

