-- ==== Sys2Proof/Machine/Bytes.lean ====
section
/-! DEFINITION. WRITE_BYTE and READ_BYTE, the `byte_composer` (spec 44_byte_composer.md). -/

namespace Sys2Proof.Machine

/-- One iteration (R150): a slot, of seven micro-steps, then the recovery delay, outside the slot's
critical section (R153). -/
def State.byteIteration (slot : State → State) (s : State) : State :=
  (((slot s).advance 7).delay .recovery).advance 1

/-- `n` iterations. -/
def State.byteIterations (slot : State → State) : Nat → State → State
  | 0, s => s
  | n + 1, s => State.byteIterations slot n (State.byteIteration slot s)

/-- `WRITE_BIT(sh[i])`, with `i` in `bitcnt` (R151, R152). -/
def State.writeCurrentBit (s : State) : State :=
  s.writeSlot (bitAt s.sh s.bitcnt.toNat)

/-- WRITE_BYTE (R151), from acceptance to completion. -/
def execWriteByte (value : Byte) (s : State) : Host.Outcome State Fault Refusal :=
  s.whenReady
    (State.byteIterations State.writeCurrentBit 8 (s.accept (commandWord .writeByte value))).complete

/-- READ_BYTE (R155), from acceptance to completion. -/
def execReadByte (data : Byte) (s : State) : Host.Outcome State Fault Refusal :=
  s.whenReady
    (State.byteIterations State.readSlot 8 (s.accept (commandWord .readByte data))).complete

end Sys2Proof.Machine
end

