-- ==== Sys2Proof/Machine/Configure.lean ====
section
/-! DEFINITION. CONFIGURE, the configuration stub (spec 45_configure.md). -/

namespace Sys2Proof.Machine

/-- CONFIGURE (R170): accepted and completed at the same time, with no micro-step between. -/
def execConfigure (data : Byte) (s : State) : Host.Outcome State Fault Refusal :=
  s.whenReady (s.accept (commandWord .configure data)).complete

end Sys2Proof.Machine
end

