-- ==== Sys2Proof/Machine/Presence.lean ====
section
/-! DEFINITION. RESET, the `reset_presence_detector` (spec 41_reset_presence.md). -/

namespace Sys2Proof.Machine

/-- Steps X0 to X5 (R120); interruptions are not suspended (R122). -/
def State.presenceSteps (s : State) : State :=
  let s := s.setLine .driveLow
  let s := s.delay .resetPulse
  let s := s.setLine .float
  let s := s.delay .presenceWait
  let s := s.samplePresence
  s.delay .postPresence

/-- RESET (R120), from acceptance to completion. -/
def execReset (data : Byte) (s : State) : Host.Outcome State Fault Refusal :=
  s.whenReady ((s.accept (commandWord .reset data)).presenceSteps.advance 6).complete

end Sys2Proof.Machine
end

