-- ==== Sys2Proof/Machine/Dispatch.lean ====
section
/-! DEFINITION. One arm for each instruction: the whole operation, from its acceptance to its
completion. -/

namespace Sys2Proof.Machine

def exec (i : Instr) (s : State) : Host.Outcome State Fault Refusal :=
  match i with
  | .reset data => Sys2Proof.Machine.execReset data s
  | .readByte data => Sys2Proof.Machine.execReadByte data s
  | .writeByte value => Sys2Proof.Machine.execWriteByte value s
  | .configure data => Sys2Proof.Machine.execConfigure data s
  | .writeBit bit => Sys2Proof.Machine.execWriteBit bit s
  | .readBit ignored => Sys2Proof.Machine.execReadBit ignored s

end Sys2Proof.Machine
end

