-- ==== Sys2Proof/Machine/Step.lean ====
section
/-! DEFINITION. One step of the machine: the pending move of an agent if there is one, else the
engine (log 6). -/

namespace Sys2Proof.Machine

def step (s : State) : Host.Outcome State Fault Refusal :=
  match s.schedule with
  | m :: rest => agentMove m { s with schedule := rest }
  | [] =>
    match s.fetch with
    | .run w => exec (decode w) (s.takeRequest w)
    | .proceed => .next s.engineStep
    | .clash => .refused .slotRequestedWhileBusy
    | .idle => .next s.lowerStrobes

/-- `s` with a word of the opcode table where the next step fetches: a slot request at the
sequencer's input, or a command word as the first of the host's program, before an idle engine with
no move pending (log 7). -/
def State.withFetchWord (s : State) (nbits w : Nat) : State :=
  if nbits ≤ 8 then
    { s with busy := false, schedule := [], slotReq := some (BitVec.ofNat 2 w) }
  else
    { s with
      busy := false
      schedule := []
      slotReq := none
      program := BitVec.ofNat 10 w :: s.program }

end Sys2Proof.Machine
end

