-- ==== Sys2Proof/WellFormed.lean ====
section
/-! DEFINITION. The checks of the spec on terms: the well-formedness of a timing configuration
(spec 00_scope.md R14), of an instruction's word (30_encoding.md R83, R84) and of a host's listing
(R86, R91). None of them is made by the hardware (R14, R128). -/

namespace Sys2Proof

/-- `WF(TimingConfig)` (R14): the read slot's initial pulse is shorter than the write slot's. -/
abbrev TimingConfig.WF (c : TimingConfig) : Prop := c.readInit.toNat < c.slotInit.toNat

/-- The operation can be requested at the command port (R81, R82); the two slots cannot (R86). -/
def Instr.isPublic : Instr → Bool
  | .reset _ => true
  | .readByte _ => true
  | .writeByte _ => true
  | .configure _ => true
  | .writeBit _ => false
  | .readBit _ => false

/-- The canonical form of a word has its ignored field at 0 (R83, R86). -/
def Instr.isCanonical : Instr → Bool
  | .reset data => data == 0
  | .readByte data => data == 0
  | .writeByte _ => true
  | .configure data => data == 0
  | .writeBit _ => true
  | .readBit ignored => !ignored

/-- A program is a list of commands the host issues (R91): no slot stands in it, since no command
word asks for a single slot (R86). -/
def wellFormedProgram (l : List Instr) : Bool := l.all Instr.isPublic

end Sys2Proof
end

