-- ==== Sys2Proof/Safety.lean ====
section
/-! DEFINITION. What claims speak of: the traces and durations the rules give for each operation
(spec 70_reset_and_hazards.md R230, R231), readings of a trace (driven-low intervals, critical
sections, counts), and the invariant of the machine. Nothing here is used by the machine. -/

namespace Sys2Proof.Machine

/-! ### Durations (R230) -/

/-- The field of a duration as a number of microseconds. -/
def time (c : TimingConfig) (k : Duration) : Nat := (c.get k).toNat

def writeSlotTime (c : TimingConfig) : Nat := time c .slotInit + time c .hold

def readSlotTime (c : TimingConfig) : Nat := time c .readInit + time c .readSample

/-- `P_W` (R231). -/
def writePeriod (c : TimingConfig) : Nat := writeSlotTime c + time c .recovery

/-- `P_R` (R231). -/
def readPeriod (c : TimingConfig) : Nat := readSlotTime c + time c .recovery

/-- The nominal duration of an operation (R230). -/
def nominalTime (c : TimingConfig) : Instr → Nat
  | .reset _ => time c .resetPulse + time c .presenceWait + time c .postPresence
  | .readByte _ => 8 * readPeriod c
  | .writeByte _ => 8 * writePeriod c
  | .configure _ => 0
  | .writeBit _ => writeSlotTime c
  | .readBit _ => readSlotTime c

/-- The number of delays of an operation (R109, R232). -/
def delayCount : Instr → Nat
  | .reset _ => 3
  | .readByte _ => 24
  | .writeByte _ => 24
  | .configure _ => 0
  | .writeBit _ => 2
  | .readBit _ => 2

/-- The operation that an instruction requests at the command port (R82); a slot requests none. -/
def requestedOperation : Instr → Option Operation
  | .reset _ => some .reset
  | .readByte _ => some .readByte
  | .writeByte _ => some .writeByte
  | .configure _ => some .configure
  | .writeBit _ => none
  | .readBit _ => none

/-- The number of bit slots of an operation, each a critical section (R109, R110). -/
def slotCount : Instr → Nat
  | .reset _ => 0
  | .readByte _ => 8
  | .writeByte _ => 8
  | .configure _ => 0
  | .writeBit _ => 1
  | .readBit _ => 1

/-- The nominal length of each critical section of an operation (R184, R228); the operations without
a slot have none. -/
def sectionTime (c : TimingConfig) : Instr → Nat
  | .reset _ => 0
  | .readByte _ => readSlotTime c
  | .writeByte _ => writeSlotTime c
  | .configure _ => 0
  | .writeBit _ => writeSlotTime c
  | .readBit _ => readSlotTime c

/-! ### The traces of the nominal model (R120, R130, R140, R151, R155) -/

/-- The micro-step `DELAY(k)` performed at time `t`, in the nominal model. -/
def delayEntry (c : TimingConfig) (t : Nat) (k : Duration) : Nat × Event :=
  (t, .delay k (time c k))

/-- Steps X0 to X5 from time `t`, the line sampled at level `l` (R120). -/
def presenceTrace (c : TimingConfig) (t : Nat) (l : Level) : Trace :=
  let released := t + time c .resetPulse
  let sampled := released + time c .presenceWait
  [(t, .line .driveLow), delayEntry c t .resetPulse, (released, .line .float),
    delayEntry c released .presenceWait, (sampled, .sample l), delayEntry c sampled .postPresence]

/-- Steps W0 to W6 from time `t` (R130). -/
def writeSlotTrace (c : TimingConfig) (t : Nat) (bit : Bool) : Trace :=
  let middle := t + time c .slotInit
  let last := middle + time c .hold
  [(t, .irqSuspend), (t, .line .driveLow), delayEntry c t .slotInit] ++
    (if bit then [(middle, .line .float)] else []) ++
    [delayEntry c middle .hold, (last, .line .float), (last, .irqResume)]

/-- Steps B0 to B6 from time `t`, the line sampled at level `l` (R140). -/
def readSlotTrace (c : TimingConfig) (t : Nat) (l : Level) : Trace :=
  let released := t + time c .readInit
  let sampled := released + time c .readSample
  [(t, .irqSuspend), (t, .line .driveLow), delayEntry c t .readInit, (released, .line .float),
    delayEntry c released .readSample, (sampled, .sample l), (sampled, .irqResume)]

/-- Write slots of the bits `bits` from time `t`, a recovery delay after each (R151). -/
def writeSlotsTrace (c : TimingConfig) : Nat → List Bool → Trace
  | _, [] => []
  | t, b :: bits =>
    writeSlotTrace c t b ++ delayEntry c (t + writeSlotTime c) .recovery ::
      writeSlotsTrace c (t + writePeriod c) bits

/-- Read slots that sample the levels `levels` from time `t`, a recovery delay after each (R155). -/
def readSlotsTrace (c : TimingConfig) : Nat → List Level → Trace
  | _, [] => []
  | t, l :: levels =>
    readSlotTrace c t l ++ delayEntry c (t + readSlotTime c) .recovery ::
      readSlotsTrace c (t + readPeriod c) levels

/-- The bits of a byte in order of transmission: bit 0 first (20_memory.md R60). -/
def bitsOf (v : Byte) : List Bool := (List.range 8).map v.getLsbD

/-- The level that stands for a bit on the line (R15, R141). -/
def levelOfBit (b : Bool) : Level := if b then .high else .low

/-- The sum of `b_i * 2^i`, `b_i` the bit of the `i`-th level (30_encoding.md R88, R156). -/
def sumOfLevels : List Level → Nat
  | [] => 0
  | l :: levels => (bitOfLevel l).toNat + 2 * sumOfLevels levels

/-! ### Readings of a trace -/

/-- The intervals (start, end) over which the master's driver is in mode `DRIVE_LOW`; `since` is
when it last went low, if it is low (R132). -/
def lowIntervals : Option Nat → Trace → List (Nat × Nat)
  | _, [] => []
  | none, (t, .line .driveLow) :: rest => lowIntervals (some t) rest
  | some since, (t, .line .float) :: rest => (since, t) :: lowIntervals none rest
  | since, _ :: rest => lowIntervals since rest

/-- An observer at time `t` finds the master driving the line low. -/
def drivenAt (tr : Trace) (t : Nat) : Bool :=
  (lowIntervals none tr).any fun i => decide (i.1 ≤ t) && decide (t < i.2)

/-- An entry that belongs to a bit slot: everything but the recovery delay (R110, R153). -/
def belongsToSlot : Event → Bool
  | .line _ => true
  | .sample _ => true
  | .delay k _ => decide (k ≠ .recovery)
  | .irqSuspend => false
  | .irqResume => false
  | .accept _ => false
  | .complete _ => false

/-- Every slot entry lies between an `IRQ_SUSPEND` and the `IRQ_RESUME` after it, every other entry
outside, and the two alternate (R110); `inside` says whether a section is open. -/
def sectionsWellFormed : Bool → Trace → Bool
  | inside, [] => !inside
  | false, (_, .irqSuspend) :: rest => sectionsWellFormed true rest
  | true, (_, .irqResume) :: rest => sectionsWellFormed false rest
  | inside, (_, e) :: rest =>
    decide (e ≠ .irqSuspend) && decide (e ≠ .irqResume) && (belongsToSlot e == inside) &&
      sectionsWellFormed inside rest

/-- The lengths of the critical sections of a trace, from each `IRQ_SUSPEND` to the `IRQ_RESUME` after
it; `since` is when the open section began, if one is open (R184, R232). -/
def sectionLengths : Option Nat → Trace → List Nat
  | _, [] => []
  | none, (t, .irqSuspend) :: rest => sectionLengths (some t) rest
  | some since, (t, .irqResume) :: rest => (t - since) :: sectionLengths none rest
  | since, _ :: rest => sectionLengths since rest

/-- The events that a micro-step performed in `s` records (R101 to R107): one, but none for
`LINE_IF_BIT` of a 0. -/
def State.eventsOf (s : State) : MicroStep → List Event
  | .line m => [.line m]
  | .lineIfBit m => if s.sh.getLsbD s.bitcnt.toNat then [.line m] else []
  | .delay k => [.delay k (s.drawLength k)]
  | .sample _ => [.sample s.sampleLine.1]
  | .irqSuspend => [.irqSuspend]
  | .irqResume => [.irqResume]

/-- How many entries of a trace satisfy `p`. -/
def count (p : Event → Bool) (tr : Trace) : Nat := tr.countP fun e => p e.2

/-- Kinds of entries, for the counts of R109. -/
def isLine : Event → Bool
  | .line _ => true
  | _ => false

def isDelay : Event → Bool
  | .delay _ _ => true
  | _ => false

def isSample : Event → Bool
  | .sample _ => true
  | _ => false

def isAccept : Event → Bool
  | .accept _ => true
  | _ => false

/-! ### The environment -/

/-- The environment's next `n` answers do not look at the trace: a script that long, or a timed
script (20_memory.md R58). -/
def scriptedFor (n : Nat) : Environment → Prop
  | .free => False
  | .script answers => n ≤ answers.length
  | .timed _ _ => True

/-! ### The invariant -/

/-- The mode of the driver before micro-step `pos` of an operation that sends `bit` (R108, R120,
R130, R140). -/
def modeAt (o : Operation) (bit : Bool) (pos : Nat) : Mode :=
  match o with
  | .reset => if pos = 1 ∨ pos = 2 then .driveLow else .float
  | .writeByte =>
    if pos % 8 = 2 ∨ pos % 8 = 3 ∨ (bit = false ∧ (pos % 8 = 4 ∨ pos % 8 = 5)) then .driveLow
    else .float
  | .readByte => if pos % 8 = 2 ∨ pos % 8 = 3 then .driveLow else .float
  | .configure => .float

/-- A byte operation before micro-step `pos` is inside the critical section of a slot (R110, R184). -/
def inCriticalSection (pos : Nat) : Prop := 1 ≤ pos % 8 ∧ pos % 8 ≤ 6

/-- A byte operation before micro-step `pos` is past the critical section of a slot and in none
(R184, R222). -/
def afterCriticalSection (pos : Nat) : Prop := pos % 8 = 7 ∨ (pos % 8 = 0 ∧ 0 < pos)

/-- What holds of the machine at every step boundary. -/
structure State.Inv (s : State) : Prop where
  /-- Whenever the engine is idle the line is released (10_state.md R35). -/
  idleReleased : s.busy = false → s.lineMode = .float
  /-- `pos` never exceeds the length of the microsequence (R27). -/
  posInRange : s.busy = true → s.pos.toNat ≤ (microsequence s.op).length
  /-- The driver follows the microsequence (R22). -/
  lineFollows : s.busy = true → s.lineMode = modeAt s.op s.currentBit s.pos.toNat
  /-- `pos = 8 * bitcnt + s`, and `bitcnt` stays 7 at the end (R26, R27). -/
  bitFollows : s.busy = true → isByteOperation s.op = true →
    s.bitcnt.toNat = min 7 (s.pos.toNat / 8)
  /-- Interruptions are suspended inside a slot (R184). -/
  suspendedInside : s.busy = true → isByteOperation s.op = true →
    inCriticalSection s.pos.toNat → s.ie = false
  /-- Interruptions are enabled after a slot (R153, R184, R222). -/
  enabledAfter : s.busy = true → isByteOperation s.op = true →
    afterCriticalSection s.pos.toNat → s.ie = true
  /-- The strobes stand for the event just performed (R32, R34). -/
  rspValidIdle : s.rspValid = true → s.busy = false
  suspendStrobe : s.irqSuspend = true → s.ie = false
  resumeStrobe : s.irqResume = true → s.ie = true
  /-- Events are in order of time, none later than the present (R17, R31). -/
  traceOrdered : s.trace.Pairwise fun a b => a.1 ≤ b.1
  tracePast : ∀ e ∈ s.trace, e.1 ≤ s.now

end Sys2Proof.Machine
end

