-- ==== Sys2Proof/Certificates/Slice0/Obligations.lean ====
section
/-! DEFINITION. The statements for the provers. An idle state is one with `busy = false`; the nominal
model is `JITTER = 0`, `STRETCH = none` (spec 40_sequencer_primitives.md R111). No statement rests on
the value of a duration or of a free value. -/

open Sys2Proof Sys2Proof.Machine

/-! ### Encodings (30_encoding.md) -/

/-- R80, R82, R83, R86: no bit of a word is dropped. -/
def Obligations.DecodeOfEncodeIsIdentity : Prop :=
  ∀ i : Instr, decodeBytes (encodeBytes i) = .ok i

/-- Each word has one meaning: what decodes to an instruction is that instruction's encoding. -/
def Obligations.EncodeOfDecodeIsIdentity : Prop :=
  ∀ (bs : List Byte) (i : Instr), decodeBytes bs = .ok i → encodeBytes i = bs

/-- R84: decoding is total on the 1024 command words, exactly one row covers each, and the operation
completes. -/
def Obligations.CommandDecodingIsTotal : Prop :=
  ∀ c : CommandWord,
    (decodeCommand c).isPublic = true ∧
    encode (decodeCommand c) = .command c ∧
    (∀ i : Instr, (rowOf i).covers (.command c) = true ↔ rowOf i = rowOf (decodeCommand c)) ∧
    ∀ s : State, s.busy = false → ∃ t, exec (decodeCommand c) s = .next t ∧ t.busy = false

/-- Words written out from R82, R86 and vectors V13, V15. The last two clauses, numbers that are
refused because a bit above the word's width is set, are the model's choice (log 12). -/
def Obligations.SpecWordsDecode : Prop :=
  decodeTableWord 16 0b0000000000 = some (.reset 0x00) ∧
  decodeTableWord 16 0b0011111111 = some (.reset 0xFF) ∧
  decodeTableWord 16 0b0110100101 = some (.readByte 0xA5) ∧
  decodeTableWord 16 0b1010100101 = some (.writeByte 0xA5) ∧
  decodeTableWord 16 0b1111111111 = some (.configure 0xFF) ∧
  decodeTableWord 8 0b00 = some (.writeBit false) ∧
  decodeTableWord 8 0b01 = some (.writeBit true) ∧
  decodeTableWord 8 0b10 = some (.readBit false) ∧
  decodeTableWord 8 0b11 = some (.readBit true) ∧
  decodeTableWord 16 0x400 = none ∧
  decodeTableWord 8 4 = none

/-- R83, R86: the `data` of RESET, READ_BYTE and CONFIGURE shows only in the word that `ACCEPT`
records, and the ignored bit of READ_BIT shows nowhere. Where the environment may look at the trace
the premise `scriptedFor` keeps it from answering by that word. -/
def Obligations.IgnoredFieldsChangeNothing : Prop :=
  (∀ s : State, s.busy = false → scriptedFor 8 s.env →
    (∃ (t : State) (rest : Trace), ∀ data, exec (.reset data) s =
      .next { t with trace := s.trace ++ (s.now, .accept (0x000 + data.setWidth 10)) :: rest }) ∧
    (∃ (t : State) (rest : Trace), ∀ data, exec (.readByte data) s =
      .next { t with trace := s.trace ++ (s.now, .accept (0x100 + data.setWidth 10)) :: rest }) ∧
    (∃ (t : State) (rest : Trace), ∀ data, exec (.configure data) s =
      .next { t with trace := s.trace ++ (s.now, .accept (0x300 + data.setWidth 10)) :: rest })) ∧
  ∀ (s : State) (a b : Bool), exec (.readBit a) s = exec (.readBit b) s

/-! ### Reset (10_state.md R36, 70_reset_and_hazards.md R210) -/

/-- R36: the entries of the reset table that have a value. -/
def Obligations.ResetStateIsIdleAndReleased : Prop :=
  State.reset.lineMode = .float ∧ State.reset.busy = false ∧ State.reset.rspValid = false ∧
  State.reset.irqSuspend = false ∧ State.reset.irqResume = false ∧
  State.reset.now = 0 ∧ State.reset.trace = []

/-- R210: a hardware reset of an idle engine releases the line, lowers `rsp_valid` and the strobes,
performs no micro-step, writes neither `ie` nor the inputs, and leaves the engine ready to accept.
The rest of the state (time, the host's program) is the model's reading, log 20. -/
def Obligations.HardwareResetOfIdleEngine : Prop :=
  ∀ (s : State) (rest : List Move), s.busy = false → s.schedule = .hardwareReset :: rest →
    ∃ t, step s = .next t ∧
      t.lineMode = .float ∧ t.busy = false ∧ t.rspValid = false ∧
      t.irqSuspend = false ∧ t.irqResume = false ∧
      t.ie = s.ie ∧ t.trace = s.trace ∧ t.cfg = s.cfg ∧ t.tolerance = s.tolerance ∧
      t.now = s.now ∧ t.program = s.program ∧ t.env = s.env ∧ t.schedule = rest ∧
      t.cmdReady = true

/-! ### The primitives (40_sequencer_primitives.md R101 to R106, R111) -/

/-- R101: the mode and one entry of the trace; no time passes; requested or not before, the entry is
made. -/
def Obligations.SetLineRequestsTheMode : Prop :=
  ∀ (s : State) (m : Mode) (bit : Bool),
    let t := s.perform bit (.line m)
    t.lineMode = m ∧ t.trace = s.trace ++ [(s.now, .line m)] ∧ t.now = s.now ∧ t.ie = s.ie ∧
    t.present = s.present ∧ t.sh = s.sh ∧ t.busy = s.busy ∧ t.rsp = s.rsp ∧
    t.lineDriveLow = decide (m = .driveLow)

/-- R105, R106: `SuspendIrq` and `ResumeIrq` write `ie` whatever it was, raise their strobe, and take
no time; after any number of suspensions one resumption enables. -/
def Obligations.InterruptionControlDoesNotNest : Prop :=
  ∀ (s : State) (bit : Bool),
    let t := s.perform bit .irqSuspend
    let u := s.perform bit .irqResume
    (t.ie = false ∧ t.irqSuspend = true ∧ t.trace = s.trace ++ [(s.now, .irqSuspend)] ∧
      t.now = s.now ∧ t.lineMode = s.lineMode ∧ t.sh = s.sh ∧ t.present = s.present) ∧
    (u.ie = true ∧ u.irqResume = true ∧ u.trace = s.trace ++ [(s.now, .irqResume)] ∧
      u.now = s.now ∧ u.lineMode = s.lineMode ∧ u.sh = s.sh ∧ u.present = s.present) ∧
    ((t.perform bit .irqSuspend).perform bit .irqResume).ie = true

/-- R103: in the nominal model `Delay(n)` lasts exactly `n`, is recorded even when `n` is 0, and
changes neither the line nor `ie`. -/
def Obligations.NominalDelayLastsItsDuration : Prop :=
  ∀ (s : State) (k : Duration) (bit : Bool), s.tolerance = .nominal →
    let t := s.perform bit (.delay k)
    t.now = s.now + (s.cfg.get k).toNat ∧
    t.trace = s.trace ++ [(s.now, .delay k (s.cfg.get k).toNat)] ∧
    t.lineMode = s.lineMode ∧ t.ie = s.ie ∧ t.sh = s.sh ∧ t.present = s.present

/-- R111: with tolerance the recorded length is the time that passes and lies within `JITTER` of `n`;
only with `STRETCH = unbounded` and `ie = true` may it exceed the upper bound. `JITTER` is at most 2
(00_scope.md R13). -/
def Obligations.DelayStaysWithinTolerance : Prop :=
  ∀ (s : State) (k : Duration) (bit : Bool),
    let n := (s.cfg.get k).toNat
    let t := s.perform bit (.delay k)
    ∃ length, t.now = s.now + length ∧ t.trace = s.trace ++ [(s.now, .delay k length)] ∧
      s.tolerance.jitter.val ≤ 2 ∧
      n ≤ length + s.tolerance.jitter.val ∧
      (s.tolerance.stretch = .none ∨ s.ie = false → length ≤ n + s.tolerance.jitter.val) ∧
      t.lineMode = s.lineMode ∧ t.ie = s.ie

/-- R104, 20_memory.md R57, R58: one read at one instant, `LOW` while the master drives, else what the
environment answers. Nothing is written but one entry of the trace, the fall of the pulses (log 16)
and the model's own record of the environment (log 13): a script loses its answer, a free answer is
counted in `draws`. -/
def Obligations.SampleLineReadsOnce : Prop :=
  ∀ s : State,
    let l := s.sampleLine.1
    let t := s.sampleLine.2
    (s.lineMode = .driveLow → l = .low ∧ t.env = s.env ∧ t.draws = s.draws) ∧
    (s.lineMode = .float →
      (s.env = .free ∨ s.env = .script [] → l = Config.envLevel s.trace s.now s.draws ∧
        t.env = s.env ∧ t.draws = s.draws + 1) ∧
      (∀ a rest, s.env = .script (a :: rest) → l = a ∧ t.env = .script rest ∧ t.draws = s.draws) ∧
      (∀ a, s.env = .timed a [] → l = a ∧ t.env = s.env ∧ t.draws = s.draws) ∧
      (∀ a changes t0 b, s.env = .timed a (changes ++ [(t0, b)]) →
        l = (if t0 ≤ s.now then b else { s with env := .timed a changes }.sampleLine.1) ∧
        t.env = s.env ∧ t.draws = s.draws)) ∧
    t = { s.lowerStrobes with
      trace := s.trace ++ [(s.now, .sample l)], env := t.env, draws := t.draws }

/-- R121, R141: RESET's sample inverts the level, a read slot's does not, and it writes bit `bitcnt`
of `sh` and no other. -/
def Obligations.SampledLevelIsTheBit : Prop :=
  ∀ (s : State) (bit : Bool),
    let l := s.sampleLine.1
    (s.perform bit (.sample .toPresence)).present = decide (l = .low) ∧
    (s.perform bit (.sample .toPresence)).sh = s.sh ∧
    (s.perform bit (.sample .toBit)).present = s.present ∧
    ∀ i : Nat, i < 8 → (s.perform bit (.sample .toBit)).sh.getLsbD i =
      if i = s.bitcnt.toNat then decide (l = .high) else s.sh.getLsbD i

/-! ### The step -/

/-- When no move is pending and the engine is idle, the step is `exec` of the instruction that the
word at the port decodes to, in the state in which the word has been taken (log 8, log 10). -/
def Obligations.StepRunsTheFetchedInstruction : Prop :=
  ∀ (s : State) (i : Instr), s.schedule = [] → s.busy = false →
    (∀ c rest, s.slotReq = none → s.program = c :: rest →
      decodeBytes (bytesOfWord (.command c)) = .ok i →
      step s = exec i { s with program := rest }) ∧
    (∀ r, s.slotReq = some r → decodeBytes (bytesOfWord (.slot r)) = .ok i →
      step s = exec i { s with slotReq := none })

/-- The word that `withFetchWord` places is the very next to run (log 7). -/
def Obligations.FetchWordRunsNext : Prop :=
  ∀ (s : State) (nbits w : Nat) (i : Instr), decodeTableWord nbits w = some i →
    step (s.withFetchWord nbits w) =
      exec i { s with busy := false, schedule := [], slotReq := none }

/-- R33: acceptance, fields by field; the time does not advance. -/
def Obligations.AcceptanceOfACommand : Prop :=
  ∀ (s : State) (c : CommandWord) (rest : List CommandWord),
    s.busy = false → s.program = c :: rest →
    let t := s.engineStep
    t.busy = true ∧ opCode t.op = c.extractLsb' 8 2 ∧ t.pos = 0 ∧ t.bitcnt = 0 ∧
    t.sh = (match t.op with
      | .writeByte => c.extractLsb' 0 8
      | .readByte => 0x00
      | .reset => s.sh
      | .configure => s.sh) ∧
    t.trace = s.trace ++ [(s.now, .accept c)] ∧ t.now = s.now ∧ t.lineMode = s.lineMode ∧
    t.ie = s.ie ∧ t.present = s.present ∧ t.rsp = s.rsp ∧ t.cmdReady = false

/-- R33, 70_reset_and_hazards.md R221: while busy nothing is accepted: a public operation asked for
then has no effect (log 9), the engine's step takes no word, and a command presented only lengthens
the host's program; that the pulses fall with the move is log 16. -/
def Obligations.BusyEngineAcceptsNothing : Prop :=
  ∀ s : State, s.busy = true →
    (∀ i : Instr, i.isPublic = true → exec i s = .next s) ∧
    (∃ seg, s.engineStep.trace = s.trace ++ seg ∧ count isAccept seg = 0) ∧
    s.engineStep.program = s.program ∧
    ∀ c rest, s.schedule = .present c :: rest →
      step s = .next { s.lowerStrobes with program := s.program ++ [c], schedule := rest }

/-- R107, R26, R27, R101 to R106: a busy engine performs the micro-step `m` at `pos`: `m` decides the
entry recorded, the line, `ie`, `present`, `sh` and the time; `pos` goes up by one, `bitcnt` follows in
a byte operation and never passes 7, the operation stays the same. -/
def Obligations.OneMicroStepAtATime : Prop :=
  ∀ (s : State) (m : MicroStep), s.Inv → s.schedule = [] → s.slotReq = none → s.busy = true →
    (microsequence s.op)[s.pos.toNat]? = some m →
    ∃ t seg, step s = .next t ∧ t = (s.perform s.currentBit m).advance 1 ∧
      t.busy = true ∧ t.op = s.op ∧
      t.pos.toNat = s.pos.toNat + 1 ∧
      t.bitcnt.toNat =
        (if isByteOperation s.op then min 7 ((s.pos.toNat + 1) / 8) else s.bitcnt.toNat) ∧
      t.trace = s.trace ++ seg ∧ seg = (s.eventsOf m).map (fun e => (s.now, e)) ∧ seg.length ≤ 1 ∧
      (seg = [] ↔ m = .lineIfBit .float ∧ s.sh.getLsbD s.bitcnt.toNat = false) ∧
      t.lineMode = (match m with
        | .line d => d
        | .lineIfBit d => if s.sh.getLsbD s.bitcnt.toNat then d else s.lineMode
        | .delay _ => s.lineMode
        | .sample _ => s.lineMode
        | .irqSuspend => s.lineMode
        | .irqResume => s.lineMode) ∧
      t.ie = (match m with
        | .irqSuspend => false
        | .irqResume => true
        | .line _ => s.ie
        | .lineIfBit _ => s.ie
        | .delay _ => s.ie
        | .sample _ => s.ie) ∧
      (m = .sample .toPresence → t.present = decide (s.sampleLine.1 = .low)) ∧
      (m ≠ .sample .toPresence → t.present = s.present) ∧
      (m = .sample .toBit → ∀ i : Nat, i < 8 → t.sh.getLsbD i =
        if i = s.bitcnt.toNat then decide (s.sampleLine.1 = .high) else s.sh.getLsbD i) ∧
      (m ≠ .sample .toBit → t.sh = s.sh) ∧
      (∀ k, m = .delay k → t.now = s.now + s.drawLength k) ∧
      ((∀ k, m ≠ .delay k) → t.now = s.now) ∧
      t.rsp = s.rsp ∧ t.cfg = s.cfg ∧ t.program = s.program

/-- R34: completion, when `pos` is the length of the microsequence; the time does not advance. -/
def Obligations.CompletionAtTheEnd : Prop :=
  ∀ s : State, s.busy = true → s.pos.toNat = (microsequence s.op).length →
    let t := s.engineStep
    t.busy = false ∧ t.rspValid = true ∧ t.rsp = s.response ∧
    t.trace = s.trace ++ [(s.now, .complete s.response)] ∧ t.now = s.now ∧
    t.lineMode = s.lineMode ∧ t.ie = s.ie ∧ t.sh = s.sh ∧ t.present = s.present ∧
    s.response = (match s.op with
      | .reset => if s.present then 0x01 else 0x00
      | .readByte => s.sh
      | .writeByte => 0x00
      | .configure => 0x00)

/-- R107, R108 against R120, R151, R155, R170: each command's meaning is the acceptance, the
micro-steps of its microsequence one after another, and the completion. -/
def Obligations.OperationIsItsMicrosequence : Prop :=
  ∀ (s : State) (c : CommandWord) (rest : List CommandWord) (o : Operation),
    s.busy = false → s.program = c :: rest →
    requestedOperation (decodeCommand c) = some o →
    exec (decodeCommand c) { s with program := rest } =
      .next (s.engineSteps ((microsequence o).length + 2))

/-- R108 against R130, R140: the slots are their microsequences. -/
def Obligations.SlotIsItsMicrosequence : Prop :=
  ∀ (s : State) (bit : Bool),
    exec (.writeBit bit) s = .next (writeSlotSteps.foldl (fun t m => t.perform bit m) s) ∧
    exec (.readBit bit) s = .next (readSlotSteps.foldl (fun t m => t.perform bit m) s)

/-! ### Invariants and the whole machine -/

/-- The reset state meets the invariant. -/
def Obligations.ResetMeetsTheInvariant : Prop := State.reset.Inv

/-- R22, R26, R27, R35, R184, R17: every step keeps the invariant. -/
def Obligations.StepKeepsTheInvariant : Prop :=
  ∀ s t : State, s.Inv → step s = .next t → t.Inv

/-- R17, R31, R66: a step only appends to the trace, in order of time, and the time never goes back. -/
def Obligations.TraceOnlyGrows : Prop :=
  ∀ s t : State, step s = .next t →
    s.now ≤ t.now ∧ ∃ seg, t.trace = s.trace ++ seg ∧
      (seg.Pairwise fun a b => a.1 ≤ b.1) ∧ ∀ e ∈ seg, s.now ≤ e.1 ∧ e.1 ≤ t.now

/-- 60_exceptions.md R180, R199: a step never faults, and it is refused only for what the host or
the platform does: a change of a duration (at any time, R30 and log 17), a hardware reset or a write
of `ie` while busy (log 18), a second writer of the line (at any time, log 19), or a slot request from
elsewhere while busy (log 11). -/
def Obligations.OnlyTheOutsideIsRefused : Prop :=
  ∀ s : State,
    (∀ f, step s ≠ .fault f) ∧
    ∀ r, step s = .refused r ↔
      (s.busy = true ∧ r = .timingChangedWhileBusy ∧
        ∃ k n, s.schedule.head? = some (.setDuration k n)) ∨
      (s.busy = false ∧ r = .timingChangedWhileIdle ∧
        ∃ k n, s.schedule.head? = some (.setDuration k n)) ∨
      (s.busy = true ∧ r = .hardwareResetWhileBusy ∧ s.schedule.head? = some .hardwareReset) ∨
      (s.busy = true ∧ r = .secondWriterOfIe ∧
        (s.schedule.head? = some .hostSuspend ∨ s.schedule.head? = some .hostResume)) ∨
      (r = .secondWriterOfLine ∧ ∃ m, s.schedule.head? = some (.secondWriter m)) ∨
      (s.busy = true ∧ r = .slotRequestedWhileBusy ∧ s.schedule = [] ∧ s.slotReq.isSome = true)

/-- 10_state.md R34, R35, 60_exceptions.md R180: from every idle state, whatever the tolerance and
the environment, every command completes: idle, the line released (CONFIGURE leaves it as it is), the
response given at the last entry of the trace, no command accepted on the way but its own. -/
def Obligations.EveryCommandCompletes : Prop :=
  ∀ (s : State) (i : Instr) (o : Operation), requestedOperation i = some o → s.busy = false →
    ∃ t seg, exec i s = .next t ∧ t.busy = false ∧ t.op = o ∧
      t.lineMode = (if o = .configure then s.lineMode else .float) ∧
      t.pos.toNat = (microsequence o).length ∧ t.rspValid = true ∧
      t.trace = s.trace ++ seg ∧ count isAccept seg = 1 ∧
      seg.getLast? = some (t.now, .complete t.rsp) ∧
      t.rsp = (match o with
        | .reset => if t.present then 0x01 else 0x00
        | .readByte => t.sh
        | .writeByte => 0x00
        | .configure => 0x00)

/-- R230: the nominal duration of every operation, the same whatever is written or sampled. -/
def Obligations.NominalDurations : Prop :=
  ∀ (s : State) (i : Instr), s.tolerance = .nominal → (i.isPublic = true → s.busy = false) →
    ∃ t, exec i s = .next t ∧ t.now = s.now + nominalTime s.cfg i

/-- R232: with tolerance an operation of `k` delays lasts at least its nominal duration minus
`k * JITTER`, and at most that plus `k * JITTER` if `STRETCH = none` or the operation is a slot. -/
def Obligations.DurationsWithinTolerance : Prop :=
  ∀ (s : State) (i : Instr), (i.isPublic = true → s.busy = false) →
    ∃ t, exec i s = .next t ∧
      s.now + nominalTime s.cfg i ≤ t.now + delayCount i * s.tolerance.jitter.val ∧
      (s.tolerance.stretch = .none ∨ i.isPublic = false →
        t.now ≤ s.now + nominalTime s.cfg i + delayCount i * s.tolerance.jitter.val)

/-- R21, R36, 93_implementation_defined.md U13: a command's behaviour does not depend on what an
earlier one (or the hardware reset) left in `op`, `pos`, `bitcnt`, `sh`, `present`, `rsp`, `dly`: two
runs end in one state, but for those of `sh`, `present` and `dly` that the command does not write,
which each run keeps. -/
def Obligations.CommandsForgetEarlierState : Prop :=
  ∀ (s : State) (i : Instr) (u : Unspecified), i.isPublic = true → s.busy = false →
    ∃ t t', exec i s = .next t ∧
      exec i { s with op := u.op, pos := u.pos, bitcnt := u.bitcnt, sh := u.sh,
                      present := u.present, rsp := u.rsp, dly := u.dly } = .next t' ∧
      t' = { t with sh := t'.sh, present := t'.present, dly := t'.dly } ∧
      ((∃ d, i = .reset d) →
        t'.present = t.present ∧ t'.dly = t.dly ∧ t.sh = s.sh ∧ t'.sh = u.sh) ∧
      ((∃ d, i = .readByte d ∨ i = .writeByte d) →
        t'.sh = t.sh ∧ t'.dly = t.dly ∧ t.present = s.present ∧ t'.present = u.present) ∧
      ((∃ d, i = .configure d) →
        t.sh = s.sh ∧ t'.sh = u.sh ∧ t.present = s.present ∧ t'.present = u.present ∧
        t.dly = s.dly ∧ t'.dly = u.dly)

/-- 10_state.md R37, R23, R30, 70_reset_and_hazards.md R222: the frame of the six operations. Only
RESET writes `present`; only the byte operations and READ_BIT write `sh`, and READ_BIT only its bit;
slots and byte operations leave `ie` true whatever it was, the others leave it alone; a slot writes
no response, position or operation; no operation writes an input or anything of the other agents. -/
def Obligations.FrameOfTheOperations : Prop :=
  ∀ (s t : State) (i : Instr), s.busy = false → exec i s = .next t →
    t.ie = (match i with
      | .reset _ => s.ie
      | .configure _ => s.ie
      | .readByte _ => true
      | .writeByte _ => true
      | .writeBit _ => true
      | .readBit _ => true) ∧
    ((∀ d, i ≠ .reset d) → t.present = s.present) ∧
    (match i with
      | .reset _ => t.sh = s.sh
      | .configure _ => t.sh = s.sh
      | .writeBit _ => t.sh = s.sh
      | .writeByte v => t.sh = v
      | .readByte _ => True
      | .readBit _ => ∀ j, j ≠ s.bitcnt.toNat → t.sh.getLsbD j = s.sh.getLsbD j) ∧
    (i.isPublic = false →
      t.op = s.op ∧ t.pos = s.pos ∧ t.bitcnt = s.bitcnt ∧ t.rsp = s.rsp ∧ t.rspValid = false) ∧
    ((∃ d, i = .configure d) → t.lineMode = s.lineMode ∧ t.dly = s.dly) ∧
    t.busy = false ∧ t.cfg = s.cfg ∧ t.tolerance = s.tolerance ∧ t.program = s.program ∧
    t.schedule = s.schedule ∧ t.slotReq = s.slotReq

/-- 10_state.md R23, R30, 60_exceptions.md R186, R197: the host's own writes of `ie` while idle and an
interruption at any time touch nothing of the engine; a change of a duration is refused at any time
(log 17). -/
def Obligations.HostAndPlatformMoves : Prop :=
  ∀ (s : State) (rest : List Move),
    (s.busy = false → s.schedule = .hostSuspend :: rest →
      step s = .next { s.lowerStrobes with ie := false, schedule := rest }) ∧
    (s.busy = false → s.schedule = .hostResume :: rest →
      step s = .next { s.lowerStrobes with ie := true, schedule := rest }) ∧
    (s.schedule = .interruption :: rest →
      step s = .next { s.lowerStrobes with schedule := rest }) ∧
    (∀ k n, s.schedule = .setDuration k n :: rest →
      step s = .refused (if s.busy then .timingChangedWhileBusy else .timingChangedWhileIdle))

/-! ### RESET (41_reset_presence.md) -/

/-- R120, R121, R122, R125: RESET whole, in the nominal model, the sample answered `l`. The entries
for `bitcnt` (log 21), `dly` (log 15), the strobes (log 16) and `draws` (log 14) are the model's. -/
def Obligations.ResetOperation : Prop :=
  ∀ (s : State) (data : Byte) (l : Level) (rest : List Level),
    s.busy = false → s.tolerance = .nominal → s.env = .script (l :: rest) →
    let present := decide (l = .low)
    let rsp : Byte := if present then 0x01 else 0x00
    let ends := s.now + (time s.cfg .resetPulse + time s.cfg .presenceWait + time s.cfg .postPresence)
    exec (.reset data) s = .next { s with
      lineMode := .float, op := .reset, pos := 6, bitcnt := 0, present := present, rsp := rsp,
      dly := 0, rspValid := true, irqSuspend := false, irqResume := false, now := ends,
      trace := s.trace ++ (s.now, .accept (0x000 + data.setWidth 10)) ::
        (presenceTrace s.cfg s.now l ++ [(ends, .complete rsp)]),
      env := .script rest, draws := s.draws + 3 }

/-- R121, R122, R124, R125: whatever the environment answers, RESET takes one sample, at one instant,
reports it inverted, and suspends no interruption. -/
def Obligations.ResetUnderEveryOracle : Prop :=
  ∀ (s : State) (data : Byte), s.busy = false → s.tolerance = .nominal →
    ∃ (l : Level) (t : State), exec (.reset data) s = .next t ∧
      t.present = decide (l = .low) ∧ t.rsp = (if l = .low then 0x01 else 0x00) ∧
      t.ie = s.ie ∧ t.sh = s.sh ∧ t.lineMode = .float ∧ t.busy = false ∧
      t.trace = s.trace ++ (s.now, .accept (0x000 + data.setWidth 10)) ::
        (presenceTrace s.cfg s.now l ++ [(t.now, .complete t.rsp)])

/-- R123, 20_memory.md R58, vector V3: with a device that pulls the line low from `a` to `b`, RESET
reports it exactly when the pulse covers the sample instant. -/
def Obligations.PresencePulseMustCoverTheSample : Prop :=
  ∀ (s : State) (data : Byte) (a b : Nat), s.busy = false → s.tolerance = .nominal →
    s.env = .timed .high [(a, .low), (b, .high)] →
    let instant := s.now + time s.cfg .resetPulse + time s.cfg .presenceWait
    ∃ t, exec (.reset data) s = .next t ∧
      (t.present = true ↔ a ≤ instant ∧ instant < b)

/-- R124, R126, R157, R59: with no device RESET reports absent every time, leaves the line released,
and READ_BYTE gives `0xFF`; with the line stuck low RESET reports present every time and READ_BYTE
gives `0x00`. The premises hold again afterwards, whatever the tolerance. -/
def Obligations.NoDeviceAndStuckLine : Prop :=
  ∀ (s : State) (data : Byte) (l : Level), s.busy = false → s.env = .timed l [] →
    (∃ t, exec (.reset data) s = .next t ∧ t.present = decide (l = .low) ∧
      t.rsp = (if l = .low then 0x01 else 0x00) ∧ t.lineMode = .float ∧ t.busy = false ∧
      t.env = s.env) ∧
    (∃ t, exec (.readByte data) s = .next t ∧ t.rsp = (if l = .low then 0x00 else 0xFF) ∧
      t.lineMode = .float ∧ t.busy = false ∧ t.env = s.env)

/-! ### WRITE_BIT and READ_BIT (42_write_bit_slot.md, 43_read_bit_slot.md) -/

/-- R130, R131, R133: WRITE_BIT whole, in the nominal model. `dly` (log 15), the strobes (log 16) and
`draws` (log 14) are the model's. -/
def Obligations.WriteBitOperation : Prop :=
  ∀ (s : State) (bit : Bool), s.tolerance = .nominal →
    exec (.writeBit bit) s = .next { s with
      lineMode := .float, ie := true, dly := 0, rspValid := false, irqSuspend := false,
      irqResume := true, now := s.now + (time s.cfg .slotInit + time s.cfg .hold),
      trace := s.trace ++ writeSlotTrace s.cfg s.now bit, draws := s.draws + 2 }

/-- R140, R141, R144, R145: READ_BIT whole, in the nominal model, the sample answered `l`. -/
def Obligations.ReadBitOperation : Prop :=
  ∀ (s : State) (ignored : Bool) (l : Level) (rest : List Level),
    s.tolerance = .nominal → s.env = .script (l :: rest) →
    ∃ sh : Byte,
      (∀ i, i < 8 → sh.getLsbD i =
        if i = s.bitcnt.toNat then decide (l = .high) else s.sh.getLsbD i) ∧
      exec (.readBit ignored) s = .next { s with
        lineMode := .float, ie := true, sh := sh, dly := 0, rspValid := false, irqSuspend := false,
        irqResume := true, now := s.now + (time s.cfg .readInit + time s.cfg .readSample),
        trace := s.trace ++ readSlotTrace s.cfg s.now l, env := .script rest,
        draws := s.draws + 2 }

/-- R142, vector V17: with a level change at `t0` the read slot returns the new level exactly when
`t0` is not after the sample instant. -/
def Obligations.ReadSlotBoundary : Prop :=
  ∀ (s : State) (ignored : Bool) (before after : Level) (t0 : Nat), s.tolerance = .nominal →
    s.env = .timed before [(t0, after)] →
    let instant := s.now + time s.cfg .readInit + time s.cfg .readSample
    ∃ t, exec (.readBit ignored) s = .next t ∧
      t.trace = s.trace ++ readSlotTrace s.cfg s.now (if t0 ≤ instant then after else before) ∧
      t.sh.getLsbD s.bitcnt.toNat = decide ((if t0 ≤ instant then after else before) = .high)

/-- R132, vector V18: an observer strictly inside the hold window finds the master driving the line
exactly for a 0, and inside the slot-init pulse for both. -/
def Obligations.ObserverRecoversTheBit : Prop :=
  ∀ (s : State) (bit : Bool), s.tolerance = .nominal →
    ∃ t seg, exec (.writeBit bit) s = .next t ∧ t.trace = s.trace ++ seg ∧
      (∀ at', s.now + time s.cfg .slotInit < at' →
        at' < s.now + time s.cfg .slotInit + time s.cfg .hold → drivenAt seg at' = !bit) ∧
      (∀ at', s.now ≤ at' → at' < s.now + time s.cfg .slotInit → drivenAt seg at' = true)

/-! ### WRITE_BYTE and READ_BYTE (44_byte_composer.md) -/

/-- R151, R152, R153: WRITE_BYTE whole, in the nominal model: eight write slots, bit 0 first, a
recovery delay after each. `dly` (log 15), the strobes (log 16) and `draws` (log 14) are the model's. -/
def Obligations.WriteByteOperation : Prop :=
  ∀ (s : State) (value : Byte), s.busy = false → s.tolerance = .nominal →
    let ends := s.now + 8 * (time s.cfg .slotInit + time s.cfg .hold + time s.cfg .recovery)
    exec (.writeByte value) s = .next { s with
      lineMode := .float, ie := true, op := .writeByte, pos := 64, bitcnt := 7, sh := value,
      rsp := 0x00, dly := 0, rspValid := true, irqSuspend := false, irqResume := false, now := ends,
      trace := s.trace ++ (s.now, .accept (0x200 + value.setWidth 10)) ::
        (writeSlotsTrace s.cfg s.now (bitsOf value) ++ [(ends, .complete 0x00)]),
      draws := s.draws + 24 }

/-- R158, second half: exactly eight driven-low intervals, whose lengths encode the bits of the byte,
bit 0 first. -/
def Obligations.WriteByteEncodesItsBits : Prop :=
  ∀ (s : State) (value : Byte), s.busy = false → s.tolerance = .nominal →
    ∃ t seg, exec (.writeByte value) s = .next t ∧ t.trace = s.trace ++ seg ∧
      lowIntervals none seg = (List.range 8).map fun i =>
        let start := s.now + i * (time s.cfg .slotInit + time s.cfg .hold + time s.cfg .recovery)
        (start, start + if value.getLsbD i then time s.cfg .slotInit
          else time s.cfg .slotInit + time s.cfg .hold)

/-- R155, R156, R153: READ_BYTE whole, in the nominal model, the samples answered `levels`. -/
def Obligations.ReadByteOperation : Prop :=
  ∀ (s : State) (data : Byte) (levels rest : List Level),
    s.busy = false → s.tolerance = .nominal → levels.length = 8 →
    s.env = .script (levels ++ rest) →
    let result : Byte := BitVec.ofNat 8 (sumOfLevels levels)
    let ends := s.now + 8 * (time s.cfg .readInit + time s.cfg .readSample + time s.cfg .recovery)
    exec (.readByte data) s = .next { s with
      lineMode := .float, ie := true, op := .readByte, pos := 64, bitcnt := 7, sh := result,
      rsp := result, dly := 0, rspValid := true, irqSuspend := false, irqResume := false,
      now := ends,
      trace := s.trace ++ (s.now, .accept (0x100 + data.setWidth 10)) ::
        (readSlotsTrace s.cfg s.now levels ++ [(ends, .complete result)]),
      env := .script rest, draws := s.draws + 24 }

/-- R155, R156, R160: whatever the environment answers, READ_BYTE takes eight samples and its result
is what they say; it looks at nothing else. -/
def Obligations.ReadByteUnderEveryOracle : Prop :=
  ∀ (s : State) (data : Byte), s.busy = false → s.tolerance = .nominal →
    ∃ (levels : List Level) (t : State), levels.length = 8 ∧ exec (.readByte data) s = .next t ∧
      t.rsp = BitVec.ofNat 8 (sumOfLevels levels) ∧ t.sh = t.rsp ∧ t.present = s.present ∧
      t.trace = s.trace ++ (s.now, .accept (0x100 + data.setWidth 10)) ::
        (readSlotsTrace s.cfg s.now levels ++ [(t.now, .complete t.rsp)])

/-- R158, first half: a device that answers the bits of `b`, bit 0 first, is read as `b`, whatever
the tolerance and whatever `sh` held. -/
def Obligations.ReadByteReturnsTheByteSent : Prop :=
  ∀ (s : State) (data b : Byte) (rest : List Level), s.busy = false →
    s.env = .script ((bitsOf b).map levelOfBit ++ rest) →
    ∃ t, exec (.readByte data) s = .next t ∧ t.rsp = b ∧ t.sh = b ∧ t.env = .script rest

/-- R110, R153, R184: in every slot, whatever the tolerance and the environment, every line request,
delay and sample lies between the slot's `IRQ_SUSPEND` and its `IRQ_RESUME`, and the recovery delays
lie outside. -/
def Obligations.SlotsAreCriticalSections : Prop :=
  ∀ s : State, s.busy = false → ∀ i : Instr, (∀ d, i ≠ .reset d) →
    ∃ t seg, exec i s = .next t ∧ t.trace = s.trace ++ seg ∧ sectionsWellFormed false seg = true

/-- R109: how many requests, samples, suspensions and delays each operation makes, whatever the
tolerance and the environment. -/
def Obligations.CountsOfEachOperation : Prop :=
  ∀ (s : State) (i : Instr), s.busy = false →
    ∃ t seg, exec i s = .next t ∧ t.trace = s.trace ++ seg ∧
      count isDelay seg = delayCount i ∧
      count isLine seg = (match i with
        | .reset _ => 2
        | .readByte _ => 16
        | .writeByte v => 16 + (bitsOf v).count true
        | .configure _ => 0
        | .writeBit b => if b then 3 else 2
        | .readBit _ => 2) ∧
      count (· == .line .driveLow) seg = (match i with
        | .reset _ => 1
        | .readByte _ => 8
        | .writeByte _ => 8
        | .configure _ => 0
        | .writeBit _ => 1
        | .readBit _ => 1) ∧
      count isSample seg = (match i with
        | .reset _ => 1
        | .readByte _ => 8
        | .writeByte _ => 0
        | .configure _ => 0
        | .writeBit _ => 0
        | .readBit _ => 1) ∧
      count (· == .irqSuspend) seg = count (· == .irqResume) seg ∧
      count (· == .irqSuspend) seg = (match i with
        | .reset _ => 0
        | .readByte _ => 8
        | .writeByte _ => 8
        | .configure _ => 0
        | .writeBit _ => 1
        | .readBit _ => 1)

/-! ### CONFIGURE (45_configure.md) -/

/-- R170, R171, R172: CONFIGURE completes at the same time with response 0 and writes nothing of the
line, `ie`, `sh`, `present` and the configuration. -/
def Obligations.ConfigureIsANoOp : Prop :=
  ∀ (s : State) (data : Byte), s.busy = false →
    ∃ t, exec (.configure data) s = .next t ∧ t.busy = false ∧ t.op = .configure ∧ t.pos = 0 ∧
      t.bitcnt = 0 ∧ t.rsp = 0x00 ∧ t.rspValid = true ∧
      t.trace = s.trace ++
        [(s.now, .accept (0x300 + data.setWidth 10)), (s.now, .complete 0x00)] ∧
      t.now = s.now ∧ t.lineMode = s.lineMode ∧ t.ie = s.ie ∧ t.sh = s.sh ∧
      t.present = s.present ∧ t.cfg = s.cfg ∧ t.dly = s.dly ∧ t.env = s.env ∧
      t.draws = s.draws ∧ t.tolerance = s.tolerance ∧ t.program = s.program ∧
      t.schedule = s.schedule ∧ t.slotReq = s.slotReq

/-! ### The inputs, the critical sections and `ie`, over the whole machine -/

/-- R232, R184, R111: whatever the environment and whether or not delays may be stretched, an
operation has its number of critical sections, and each lasts within `2 * JITTER` of its nominal
length, inside a byte operation too. -/
def Obligations.CriticalSectionsStayBounded : Prop :=
  ∀ (s : State) (i : Instr), (i.isPublic = true → s.busy = false) →
    ∃ t seg, exec i s = .next t ∧ t.trace = s.trace ++ seg ∧
      (sectionLengths none seg).length = slotCount i ∧
      ∀ n ∈ sectionLengths none seg,
        sectionTime s.cfg i ≤ n + 2 * s.tolerance.jitter.val ∧
        n ≤ sectionTime s.cfg i + 2 * s.tolerance.jitter.val

/-- 10_state.md R30, 20_memory.md R70, 00_scope.md R13: the durations and the tolerance are constant
over a run. -/
def Obligations.StaticInputsStayConstant : Prop :=
  ∀ s t : State, step s = .next t → t.cfg = s.cfg ∧ t.tolerance = s.tolerance

/-- 60_exceptions.md R184: one step of the engine changes `ie` only in a byte operation, by the
`IRQ_SUSPEND` that begins a slot or the `IRQ_RESUME` that ends one. -/
def Obligations.InterruptionEnableChangesOnlyInSlots : Prop :=
  ∀ s : State, s.engineStep.ie ≠ s.ie →
    s.busy = true ∧ isByteOperation s.op = true ∧ s.pos.toNat < 64 ∧
    ((s.pos.toNat % 8 = 0 ∧ (microsequence s.op)[s.pos.toNat]? = some .irqSuspend ∧
        s.engineStep.ie = false) ∨
      (s.pos.toNat % 8 = 6 ∧ (microsequence s.op)[s.pos.toNat]? = some .irqResume ∧
        s.engineStep.ie = true))
end

