-- ==== Sys2Proof/Laws/State.lean ====
section
/-! SUPPORT. What each named update of the state does to each field: one lemma for each, true by
unfolding, so that no later proof unfolds a record update. -/

namespace Sys2Proof.Machine

variable (s : State)

/-! ### lowerStrobes -/

@[simp] theorem State.lowerStrobes_lineMode : (s.lowerStrobes).lineMode = s.lineMode := rfl
@[simp] theorem State.lowerStrobes_ie : (s.lowerStrobes).ie = s.ie := rfl
@[simp] theorem State.lowerStrobes_busy : (s.lowerStrobes).busy = s.busy := rfl
@[simp] theorem State.lowerStrobes_op : (s.lowerStrobes).op = s.op := rfl
@[simp] theorem State.lowerStrobes_pos : (s.lowerStrobes).pos = s.pos := rfl
@[simp] theorem State.lowerStrobes_bitcnt : (s.lowerStrobes).bitcnt = s.bitcnt := rfl
@[simp] theorem State.lowerStrobes_sh : (s.lowerStrobes).sh = s.sh := rfl
@[simp] theorem State.lowerStrobes_present : (s.lowerStrobes).present = s.present := rfl
@[simp] theorem State.lowerStrobes_rsp : (s.lowerStrobes).rsp = s.rsp := rfl
@[simp] theorem State.lowerStrobes_dly : (s.lowerStrobes).dly = s.dly := rfl
@[simp] theorem State.lowerStrobes_rspValid : (s.lowerStrobes).rspValid = false := rfl
@[simp] theorem State.lowerStrobes_irqSuspend : (s.lowerStrobes).irqSuspend = false := rfl
@[simp] theorem State.lowerStrobes_irqResume : (s.lowerStrobes).irqResume = false := rfl
@[simp] theorem State.lowerStrobes_cfg : (s.lowerStrobes).cfg = s.cfg := rfl
@[simp] theorem State.lowerStrobes_tolerance : (s.lowerStrobes).tolerance = s.tolerance := rfl
@[simp] theorem State.lowerStrobes_now : (s.lowerStrobes).now = s.now := rfl
@[simp] theorem State.lowerStrobes_trace : (s.lowerStrobes).trace = s.trace := rfl
@[simp] theorem State.lowerStrobes_program : (s.lowerStrobes).program = s.program := rfl
@[simp] theorem State.lowerStrobes_slotReq : (s.lowerStrobes).slotReq = s.slotReq := rfl
@[simp] theorem State.lowerStrobes_schedule : (s.lowerStrobes).schedule = s.schedule := rfl
@[simp] theorem State.lowerStrobes_env : (s.lowerStrobes).env = s.env := rfl
@[simp] theorem State.lowerStrobes_draws : (s.lowerStrobes).draws = s.draws := rfl

/-! ### emit -/

@[simp] theorem State.emit_lineMode (e : Event) : (s.emit e).lineMode = s.lineMode := rfl
@[simp] theorem State.emit_ie (e : Event) : (s.emit e).ie = s.ie := rfl
@[simp] theorem State.emit_busy (e : Event) : (s.emit e).busy = s.busy := rfl
@[simp] theorem State.emit_op (e : Event) : (s.emit e).op = s.op := rfl
@[simp] theorem State.emit_pos (e : Event) : (s.emit e).pos = s.pos := rfl
@[simp] theorem State.emit_bitcnt (e : Event) : (s.emit e).bitcnt = s.bitcnt := rfl
@[simp] theorem State.emit_sh (e : Event) : (s.emit e).sh = s.sh := rfl
@[simp] theorem State.emit_present (e : Event) : (s.emit e).present = s.present := rfl
@[simp] theorem State.emit_rsp (e : Event) : (s.emit e).rsp = s.rsp := rfl
@[simp] theorem State.emit_dly (e : Event) : (s.emit e).dly = s.dly := rfl
@[simp] theorem State.emit_rspValid (e : Event) : (s.emit e).rspValid = false := rfl
@[simp] theorem State.emit_irqSuspend (e : Event) : (s.emit e).irqSuspend = false := rfl
@[simp] theorem State.emit_irqResume (e : Event) : (s.emit e).irqResume = false := rfl
@[simp] theorem State.emit_cfg (e : Event) : (s.emit e).cfg = s.cfg := rfl
@[simp] theorem State.emit_tolerance (e : Event) : (s.emit e).tolerance = s.tolerance := rfl
@[simp] theorem State.emit_now (e : Event) : (s.emit e).now = s.now := rfl
@[simp] theorem State.emit_trace (e : Event) : (s.emit e).trace = s.trace ++ [(s.now, e)] := rfl
@[simp] theorem State.emit_program (e : Event) : (s.emit e).program = s.program := rfl
@[simp] theorem State.emit_slotReq (e : Event) : (s.emit e).slotReq = s.slotReq := rfl
@[simp] theorem State.emit_schedule (e : Event) : (s.emit e).schedule = s.schedule := rfl
@[simp] theorem State.emit_env (e : Event) : (s.emit e).env = s.env := rfl
@[simp] theorem State.emit_draws (e : Event) : (s.emit e).draws = s.draws := rfl

/-! ### setLine -/

@[simp] theorem State.setLine_lineMode (m : Mode) : (s.setLine m).lineMode = m := rfl
@[simp] theorem State.setLine_ie (m : Mode) : (s.setLine m).ie = s.ie := rfl
@[simp] theorem State.setLine_busy (m : Mode) : (s.setLine m).busy = s.busy := rfl
@[simp] theorem State.setLine_op (m : Mode) : (s.setLine m).op = s.op := rfl
@[simp] theorem State.setLine_pos (m : Mode) : (s.setLine m).pos = s.pos := rfl
@[simp] theorem State.setLine_bitcnt (m : Mode) : (s.setLine m).bitcnt = s.bitcnt := rfl
@[simp] theorem State.setLine_sh (m : Mode) : (s.setLine m).sh = s.sh := rfl
@[simp] theorem State.setLine_present (m : Mode) : (s.setLine m).present = s.present := rfl
@[simp] theorem State.setLine_rsp (m : Mode) : (s.setLine m).rsp = s.rsp := rfl
@[simp] theorem State.setLine_dly (m : Mode) : (s.setLine m).dly = s.dly := rfl
@[simp] theorem State.setLine_rspValid (m : Mode) : (s.setLine m).rspValid = false := rfl
@[simp] theorem State.setLine_irqSuspend (m : Mode) : (s.setLine m).irqSuspend = false := rfl
@[simp] theorem State.setLine_irqResume (m : Mode) : (s.setLine m).irqResume = false := rfl
@[simp] theorem State.setLine_cfg (m : Mode) : (s.setLine m).cfg = s.cfg := rfl
@[simp] theorem State.setLine_tolerance (m : Mode) : (s.setLine m).tolerance = s.tolerance := rfl
@[simp] theorem State.setLine_now (m : Mode) : (s.setLine m).now = s.now := rfl
@[simp] theorem State.setLine_trace (m : Mode) :
    (s.setLine m).trace = s.trace ++ [(s.now, .line m)] := rfl
@[simp] theorem State.setLine_program (m : Mode) : (s.setLine m).program = s.program := rfl
@[simp] theorem State.setLine_slotReq (m : Mode) : (s.setLine m).slotReq = s.slotReq := rfl
@[simp] theorem State.setLine_schedule (m : Mode) : (s.setLine m).schedule = s.schedule := rfl
@[simp] theorem State.setLine_env (m : Mode) : (s.setLine m).env = s.env := rfl
@[simp] theorem State.setLine_draws (m : Mode) : (s.setLine m).draws = s.draws := rfl

/-! ### suspendIrq -/

@[simp] theorem State.suspendIrq_lineMode : (s.suspendIrq).lineMode = s.lineMode := rfl
@[simp] theorem State.suspendIrq_ie : (s.suspendIrq).ie = false := rfl
@[simp] theorem State.suspendIrq_busy : (s.suspendIrq).busy = s.busy := rfl
@[simp] theorem State.suspendIrq_op : (s.suspendIrq).op = s.op := rfl
@[simp] theorem State.suspendIrq_pos : (s.suspendIrq).pos = s.pos := rfl
@[simp] theorem State.suspendIrq_bitcnt : (s.suspendIrq).bitcnt = s.bitcnt := rfl
@[simp] theorem State.suspendIrq_sh : (s.suspendIrq).sh = s.sh := rfl
@[simp] theorem State.suspendIrq_present : (s.suspendIrq).present = s.present := rfl
@[simp] theorem State.suspendIrq_rsp : (s.suspendIrq).rsp = s.rsp := rfl
@[simp] theorem State.suspendIrq_dly : (s.suspendIrq).dly = s.dly := rfl
@[simp] theorem State.suspendIrq_rspValid : (s.suspendIrq).rspValid = false := rfl
@[simp] theorem State.suspendIrq_irqSuspend : (s.suspendIrq).irqSuspend = true := rfl
@[simp] theorem State.suspendIrq_irqResume : (s.suspendIrq).irqResume = false := rfl
@[simp] theorem State.suspendIrq_cfg : (s.suspendIrq).cfg = s.cfg := rfl
@[simp] theorem State.suspendIrq_tolerance : (s.suspendIrq).tolerance = s.tolerance := rfl
@[simp] theorem State.suspendIrq_now : (s.suspendIrq).now = s.now := rfl
@[simp] theorem State.suspendIrq_trace :
    (s.suspendIrq).trace = s.trace ++ [(s.now, .irqSuspend)] := rfl
@[simp] theorem State.suspendIrq_program : (s.suspendIrq).program = s.program := rfl
@[simp] theorem State.suspendIrq_slotReq : (s.suspendIrq).slotReq = s.slotReq := rfl
@[simp] theorem State.suspendIrq_schedule : (s.suspendIrq).schedule = s.schedule := rfl
@[simp] theorem State.suspendIrq_env : (s.suspendIrq).env = s.env := rfl
@[simp] theorem State.suspendIrq_draws : (s.suspendIrq).draws = s.draws := rfl

/-! ### resumeIrq -/

@[simp] theorem State.resumeIrq_lineMode : (s.resumeIrq).lineMode = s.lineMode := rfl
@[simp] theorem State.resumeIrq_ie : (s.resumeIrq).ie = true := rfl
@[simp] theorem State.resumeIrq_busy : (s.resumeIrq).busy = s.busy := rfl
@[simp] theorem State.resumeIrq_op : (s.resumeIrq).op = s.op := rfl
@[simp] theorem State.resumeIrq_pos : (s.resumeIrq).pos = s.pos := rfl
@[simp] theorem State.resumeIrq_bitcnt : (s.resumeIrq).bitcnt = s.bitcnt := rfl
@[simp] theorem State.resumeIrq_sh : (s.resumeIrq).sh = s.sh := rfl
@[simp] theorem State.resumeIrq_present : (s.resumeIrq).present = s.present := rfl
@[simp] theorem State.resumeIrq_rsp : (s.resumeIrq).rsp = s.rsp := rfl
@[simp] theorem State.resumeIrq_dly : (s.resumeIrq).dly = s.dly := rfl
@[simp] theorem State.resumeIrq_rspValid : (s.resumeIrq).rspValid = false := rfl
@[simp] theorem State.resumeIrq_irqSuspend : (s.resumeIrq).irqSuspend = false := rfl
@[simp] theorem State.resumeIrq_irqResume : (s.resumeIrq).irqResume = true := rfl
@[simp] theorem State.resumeIrq_cfg : (s.resumeIrq).cfg = s.cfg := rfl
@[simp] theorem State.resumeIrq_tolerance : (s.resumeIrq).tolerance = s.tolerance := rfl
@[simp] theorem State.resumeIrq_now : (s.resumeIrq).now = s.now := rfl
@[simp] theorem State.resumeIrq_trace :
    (s.resumeIrq).trace = s.trace ++ [(s.now, .irqResume)] := rfl
@[simp] theorem State.resumeIrq_program : (s.resumeIrq).program = s.program := rfl
@[simp] theorem State.resumeIrq_slotReq : (s.resumeIrq).slotReq = s.slotReq := rfl
@[simp] theorem State.resumeIrq_schedule : (s.resumeIrq).schedule = s.schedule := rfl
@[simp] theorem State.resumeIrq_env : (s.resumeIrq).env = s.env := rfl
@[simp] theorem State.resumeIrq_draws : (s.resumeIrq).draws = s.draws := rfl

/-! ### delay -/

@[simp] theorem State.delay_lineMode (k : Duration) : (s.delay k).lineMode = s.lineMode := rfl
@[simp] theorem State.delay_ie (k : Duration) : (s.delay k).ie = s.ie := rfl
@[simp] theorem State.delay_busy (k : Duration) : (s.delay k).busy = s.busy := rfl
@[simp] theorem State.delay_op (k : Duration) : (s.delay k).op = s.op := rfl
@[simp] theorem State.delay_pos (k : Duration) : (s.delay k).pos = s.pos := rfl
@[simp] theorem State.delay_bitcnt (k : Duration) : (s.delay k).bitcnt = s.bitcnt := rfl
@[simp] theorem State.delay_sh (k : Duration) : (s.delay k).sh = s.sh := rfl
@[simp] theorem State.delay_present (k : Duration) : (s.delay k).present = s.present := rfl
@[simp] theorem State.delay_rsp (k : Duration) : (s.delay k).rsp = s.rsp := rfl
@[simp] theorem State.delay_dly (k : Duration) : (s.delay k).dly = 0 := rfl
@[simp] theorem State.delay_rspValid (k : Duration) : (s.delay k).rspValid = false := rfl
@[simp] theorem State.delay_irqSuspend (k : Duration) : (s.delay k).irqSuspend = false := rfl
@[simp] theorem State.delay_irqResume (k : Duration) : (s.delay k).irqResume = false := rfl
@[simp] theorem State.delay_cfg (k : Duration) : (s.delay k).cfg = s.cfg := rfl
@[simp] theorem State.delay_tolerance (k : Duration) : (s.delay k).tolerance = s.tolerance := rfl
@[simp] theorem State.delay_now (k : Duration) : (s.delay k).now = s.now + s.drawLength k := rfl
@[simp] theorem State.delay_trace (k : Duration) :
    (s.delay k).trace = s.trace ++ [(s.now, .delay k (s.drawLength k))] := rfl
@[simp] theorem State.delay_program (k : Duration) : (s.delay k).program = s.program := rfl
@[simp] theorem State.delay_slotReq (k : Duration) : (s.delay k).slotReq = s.slotReq := rfl
@[simp] theorem State.delay_schedule (k : Duration) : (s.delay k).schedule = s.schedule := rfl
@[simp] theorem State.delay_env (k : Duration) : (s.delay k).env = s.env := rfl
@[simp] theorem State.delay_draws (k : Duration) : (s.delay k).draws = s.draws + 1 := rfl

/-! ### accept -/

@[simp] theorem State.accept_lineMode (c : CommandWord) : (s.accept c).lineMode = s.lineMode := rfl
@[simp] theorem State.accept_ie (c : CommandWord) : (s.accept c).ie = s.ie := rfl
@[simp] theorem State.accept_busy (c : CommandWord) : (s.accept c).busy = true := rfl
@[simp] theorem State.accept_op (c : CommandWord) :
    (s.accept c).op = operationOf (commandOp c) := rfl
@[simp] theorem State.accept_pos (c : CommandWord) : (s.accept c).pos = 0 := rfl
@[simp] theorem State.accept_bitcnt (c : CommandWord) : (s.accept c).bitcnt = 0 := rfl
@[simp] theorem State.accept_sh (c : CommandWord) :
    (s.accept c).sh = shiftAtAcceptance (operationOf (commandOp c)) (commandData c) s.sh := rfl
@[simp] theorem State.accept_present (c : CommandWord) : (s.accept c).present = s.present := rfl
@[simp] theorem State.accept_rsp (c : CommandWord) : (s.accept c).rsp = s.rsp := rfl
@[simp] theorem State.accept_dly (c : CommandWord) : (s.accept c).dly = s.dly := rfl
@[simp] theorem State.accept_rspValid (c : CommandWord) : (s.accept c).rspValid = false := rfl
@[simp] theorem State.accept_irqSuspend (c : CommandWord) : (s.accept c).irqSuspend = false := rfl
@[simp] theorem State.accept_irqResume (c : CommandWord) : (s.accept c).irqResume = false := rfl
@[simp] theorem State.accept_cfg (c : CommandWord) : (s.accept c).cfg = s.cfg := rfl
@[simp] theorem State.accept_tolerance (c : CommandWord) :
    (s.accept c).tolerance = s.tolerance := rfl
@[simp] theorem State.accept_now (c : CommandWord) : (s.accept c).now = s.now := rfl
@[simp] theorem State.accept_trace (c : CommandWord) :
    (s.accept c).trace = s.trace ++ [(s.now, .accept c)] := rfl
@[simp] theorem State.accept_program (c : CommandWord) : (s.accept c).program = s.program := rfl
@[simp] theorem State.accept_slotReq (c : CommandWord) : (s.accept c).slotReq = s.slotReq := rfl
@[simp] theorem State.accept_schedule (c : CommandWord) : (s.accept c).schedule = s.schedule := rfl
@[simp] theorem State.accept_env (c : CommandWord) : (s.accept c).env = s.env := rfl
@[simp] theorem State.accept_draws (c : CommandWord) : (s.accept c).draws = s.draws := rfl

/-! ### complete -/

@[simp] theorem State.complete_lineMode : (s.complete).lineMode = s.lineMode := rfl
@[simp] theorem State.complete_ie : (s.complete).ie = s.ie := rfl
@[simp] theorem State.complete_busy : (s.complete).busy = false := rfl
@[simp] theorem State.complete_op : (s.complete).op = s.op := rfl
@[simp] theorem State.complete_pos : (s.complete).pos = s.pos := rfl
@[simp] theorem State.complete_bitcnt : (s.complete).bitcnt = s.bitcnt := rfl
@[simp] theorem State.complete_sh : (s.complete).sh = s.sh := rfl
@[simp] theorem State.complete_present : (s.complete).present = s.present := rfl
@[simp] theorem State.complete_rsp : (s.complete).rsp = s.response := rfl
@[simp] theorem State.complete_dly : (s.complete).dly = s.dly := rfl
@[simp] theorem State.complete_rspValid : (s.complete).rspValid = true := rfl
@[simp] theorem State.complete_irqSuspend : (s.complete).irqSuspend = false := rfl
@[simp] theorem State.complete_irqResume : (s.complete).irqResume = false := rfl
@[simp] theorem State.complete_cfg : (s.complete).cfg = s.cfg := rfl
@[simp] theorem State.complete_tolerance : (s.complete).tolerance = s.tolerance := rfl
@[simp] theorem State.complete_now : (s.complete).now = s.now := rfl
@[simp] theorem State.complete_trace :
    (s.complete).trace = s.trace ++ [(s.now, .complete s.response)] := rfl
@[simp] theorem State.complete_program : (s.complete).program = s.program := rfl
@[simp] theorem State.complete_slotReq : (s.complete).slotReq = s.slotReq := rfl
@[simp] theorem State.complete_schedule : (s.complete).schedule = s.schedule := rfl
@[simp] theorem State.complete_env : (s.complete).env = s.env := rfl
@[simp] theorem State.complete_draws : (s.complete).draws = s.draws := rfl

/-! ### advance -/

@[simp] theorem State.advance_lineMode (n : BitVec 7) : (s.advance n).lineMode = s.lineMode := rfl
@[simp] theorem State.advance_ie (n : BitVec 7) : (s.advance n).ie = s.ie := rfl
@[simp] theorem State.advance_busy (n : BitVec 7) : (s.advance n).busy = s.busy := rfl
@[simp] theorem State.advance_op (n : BitVec 7) : (s.advance n).op = s.op := rfl
@[simp] theorem State.advance_pos (n : BitVec 7) : (s.advance n).pos = s.pos + n := rfl
@[simp] theorem State.advance_bitcnt (n : BitVec 7) :
    (s.advance n).bitcnt =
      if isByteOperation s.op && (s.pos + n).toNat < 64 then BitVec.ofNat 3 ((s.pos + n).toNat / 8)
      else s.bitcnt := rfl
@[simp] theorem State.advance_sh (n : BitVec 7) : (s.advance n).sh = s.sh := rfl
@[simp] theorem State.advance_present (n : BitVec 7) : (s.advance n).present = s.present := rfl
@[simp] theorem State.advance_rsp (n : BitVec 7) : (s.advance n).rsp = s.rsp := rfl
@[simp] theorem State.advance_dly (n : BitVec 7) : (s.advance n).dly = s.dly := rfl
@[simp] theorem State.advance_rspValid (n : BitVec 7) : (s.advance n).rspValid = s.rspValid := rfl
@[simp] theorem State.advance_irqSuspend (n : BitVec 7) : (s.advance n).irqSuspend = s.irqSuspend := rfl
@[simp] theorem State.advance_irqResume (n : BitVec 7) : (s.advance n).irqResume = s.irqResume := rfl
@[simp] theorem State.advance_cfg (n : BitVec 7) : (s.advance n).cfg = s.cfg := rfl
@[simp] theorem State.advance_tolerance (n : BitVec 7) : (s.advance n).tolerance = s.tolerance := rfl
@[simp] theorem State.advance_now (n : BitVec 7) : (s.advance n).now = s.now := rfl
@[simp] theorem State.advance_trace (n : BitVec 7) : (s.advance n).trace = s.trace := rfl
@[simp] theorem State.advance_program (n : BitVec 7) : (s.advance n).program = s.program := rfl
@[simp] theorem State.advance_slotReq (n : BitVec 7) : (s.advance n).slotReq = s.slotReq := rfl
@[simp] theorem State.advance_schedule (n : BitVec 7) : (s.advance n).schedule = s.schedule := rfl
@[simp] theorem State.advance_env (n : BitVec 7) : (s.advance n).env = s.env := rfl
@[simp] theorem State.advance_draws (n : BitVec 7) : (s.advance n).draws = s.draws := rfl

/-! ### readLine: only the environment's own fields change -/

@[simp] theorem State.readLine_lineMode : s.readLine.2.lineMode = s.lineMode := by
  unfold State.readLine State.answer
  repeat' split
  all_goals rfl
@[simp] theorem State.readLine_ie : s.readLine.2.ie = s.ie := by
  unfold State.readLine State.answer
  repeat' split
  all_goals rfl
@[simp] theorem State.readLine_busy : s.readLine.2.busy = s.busy := by
  unfold State.readLine State.answer
  repeat' split
  all_goals rfl
@[simp] theorem State.readLine_op : s.readLine.2.op = s.op := by
  unfold State.readLine State.answer
  repeat' split
  all_goals rfl
@[simp] theorem State.readLine_pos : s.readLine.2.pos = s.pos := by
  unfold State.readLine State.answer
  repeat' split
  all_goals rfl
@[simp] theorem State.readLine_bitcnt : s.readLine.2.bitcnt = s.bitcnt := by
  unfold State.readLine State.answer
  repeat' split
  all_goals rfl
@[simp] theorem State.readLine_sh : s.readLine.2.sh = s.sh := by
  unfold State.readLine State.answer
  repeat' split
  all_goals rfl
@[simp] theorem State.readLine_present : s.readLine.2.present = s.present := by
  unfold State.readLine State.answer
  repeat' split
  all_goals rfl
@[simp] theorem State.readLine_rsp : s.readLine.2.rsp = s.rsp := by
  unfold State.readLine State.answer
  repeat' split
  all_goals rfl
@[simp] theorem State.readLine_dly : s.readLine.2.dly = s.dly := by
  unfold State.readLine State.answer
  repeat' split
  all_goals rfl
@[simp] theorem State.readLine_rspValid : s.readLine.2.rspValid = s.rspValid := by
  unfold State.readLine State.answer
  repeat' split
  all_goals rfl
@[simp] theorem State.readLine_irqSuspend : s.readLine.2.irqSuspend = s.irqSuspend := by
  unfold State.readLine State.answer
  repeat' split
  all_goals rfl
@[simp] theorem State.readLine_irqResume : s.readLine.2.irqResume = s.irqResume := by
  unfold State.readLine State.answer
  repeat' split
  all_goals rfl
@[simp] theorem State.readLine_cfg : s.readLine.2.cfg = s.cfg := by
  unfold State.readLine State.answer
  repeat' split
  all_goals rfl
@[simp] theorem State.readLine_tolerance : s.readLine.2.tolerance = s.tolerance := by
  unfold State.readLine State.answer
  repeat' split
  all_goals rfl
@[simp] theorem State.readLine_now : s.readLine.2.now = s.now := by
  unfold State.readLine State.answer
  repeat' split
  all_goals rfl
@[simp] theorem State.readLine_trace : s.readLine.2.trace = s.trace := by
  unfold State.readLine State.answer
  repeat' split
  all_goals rfl
@[simp] theorem State.readLine_program : s.readLine.2.program = s.program := by
  unfold State.readLine State.answer
  repeat' split
  all_goals rfl
@[simp] theorem State.readLine_slotReq : s.readLine.2.slotReq = s.slotReq := by
  unfold State.readLine State.answer
  repeat' split
  all_goals rfl
@[simp] theorem State.readLine_schedule : s.readLine.2.schedule = s.schedule := by
  unfold State.readLine State.answer
  repeat' split
  all_goals rfl

/-! ### samplePresence: what the environment answers stands in `sampleLine` -/

/-! ### sampleBit: what the environment answers stands in `sampleLine` -/

@[simp] theorem State.sampleLine_lineMode :
    s.sampleLine.2.lineMode = s.lineMode := by
  simp [State.sampleLine]
@[simp] theorem State.sampleLine_ie :
    s.sampleLine.2.ie = s.ie := by
  simp [State.sampleLine]
@[simp] theorem State.sampleLine_busy :
    s.sampleLine.2.busy = s.busy := by
  simp [State.sampleLine]
@[simp] theorem State.sampleLine_op :
    s.sampleLine.2.op = s.op := by
  simp [State.sampleLine]
@[simp] theorem State.sampleLine_pos :
    s.sampleLine.2.pos = s.pos := by
  simp [State.sampleLine]
@[simp] theorem State.sampleLine_bitcnt :
    s.sampleLine.2.bitcnt = s.bitcnt := by
  simp [State.sampleLine]
@[simp] theorem State.sampleLine_sh :
    s.sampleLine.2.sh = s.sh := by
  simp [State.sampleLine]
@[simp] theorem State.sampleLine_present :
    s.sampleLine.2.present = s.present := by
  simp [State.sampleLine]
@[simp] theorem State.sampleLine_rsp :
    s.sampleLine.2.rsp = s.rsp := by
  simp [State.sampleLine]
@[simp] theorem State.sampleLine_dly :
    s.sampleLine.2.dly = s.dly := by
  simp [State.sampleLine]
@[simp] theorem State.sampleLine_rspValid :
    s.sampleLine.2.rspValid = false := rfl
@[simp] theorem State.sampleLine_irqSuspend :
    s.sampleLine.2.irqSuspend = false := rfl
@[simp] theorem State.sampleLine_irqResume :
    s.sampleLine.2.irqResume = false := rfl
@[simp] theorem State.sampleLine_cfg :
    s.sampleLine.2.cfg = s.cfg := by
  simp [State.sampleLine]
@[simp] theorem State.sampleLine_tolerance :
    s.sampleLine.2.tolerance = s.tolerance := by
  simp [State.sampleLine]
@[simp] theorem State.sampleLine_now :
    s.sampleLine.2.now = s.now := by
  simp [State.sampleLine]
@[simp] theorem State.sampleLine_trace :
    s.sampleLine.2.trace = s.trace ++ [(s.now, .sample s.sampleLine.1)] := by
  simp [State.sampleLine]
@[simp] theorem State.sampleLine_program :
    s.sampleLine.2.program = s.program := by
  simp [State.sampleLine]
@[simp] theorem State.sampleLine_slotReq :
    s.sampleLine.2.slotReq = s.slotReq := by
  simp [State.sampleLine]
@[simp] theorem State.sampleLine_schedule :
    s.sampleLine.2.schedule = s.schedule := by
  simp [State.sampleLine]

@[simp] theorem State.samplePresence_lineMode :
    s.samplePresence.lineMode = s.lineMode :=
  State.sampleLine_lineMode s
@[simp] theorem State.samplePresence_ie :
    s.samplePresence.ie = s.ie :=
  State.sampleLine_ie s
@[simp] theorem State.samplePresence_busy :
    s.samplePresence.busy = s.busy :=
  State.sampleLine_busy s
@[simp] theorem State.samplePresence_op :
    s.samplePresence.op = s.op :=
  State.sampleLine_op s
@[simp] theorem State.samplePresence_pos :
    s.samplePresence.pos = s.pos :=
  State.sampleLine_pos s
@[simp] theorem State.samplePresence_bitcnt :
    s.samplePresence.bitcnt = s.bitcnt :=
  State.sampleLine_bitcnt s
@[simp] theorem State.samplePresence_sh :
    s.samplePresence.sh = s.sh :=
  State.sampleLine_sh s
@[simp] theorem State.samplePresence_present :
    s.samplePresence.present = presentOfLevel s.sampleLine.1 := rfl
@[simp] theorem State.samplePresence_rsp :
    s.samplePresence.rsp = s.rsp :=
  State.sampleLine_rsp s
@[simp] theorem State.samplePresence_dly :
    s.samplePresence.dly = s.dly :=
  State.sampleLine_dly s
@[simp] theorem State.samplePresence_rspValid :
    s.samplePresence.rspValid = false := rfl
@[simp] theorem State.samplePresence_irqSuspend :
    s.samplePresence.irqSuspend = false := rfl
@[simp] theorem State.samplePresence_irqResume :
    s.samplePresence.irqResume = false := rfl
@[simp] theorem State.samplePresence_cfg :
    s.samplePresence.cfg = s.cfg :=
  State.sampleLine_cfg s
@[simp] theorem State.samplePresence_tolerance :
    s.samplePresence.tolerance = s.tolerance :=
  State.sampleLine_tolerance s
@[simp] theorem State.samplePresence_now :
    s.samplePresence.now = s.now :=
  State.sampleLine_now s
@[simp] theorem State.samplePresence_trace :
    s.samplePresence.trace = s.trace ++ [(s.now, .sample s.sampleLine.1)] :=
  State.sampleLine_trace s
@[simp] theorem State.samplePresence_program :
    s.samplePresence.program = s.program :=
  State.sampleLine_program s
@[simp] theorem State.samplePresence_slotReq :
    s.samplePresence.slotReq = s.slotReq :=
  State.sampleLine_slotReq s
@[simp] theorem State.samplePresence_schedule :
    s.samplePresence.schedule = s.schedule :=
  State.sampleLine_schedule s
@[simp] theorem State.samplePresence_env : s.samplePresence.env = s.sampleLine.2.env := rfl
@[simp] theorem State.samplePresence_draws : s.samplePresence.draws = s.sampleLine.2.draws := rfl

@[simp] theorem State.sampleBit_lineMode :
    s.sampleBit.lineMode = s.lineMode :=
  State.sampleLine_lineMode s
@[simp] theorem State.sampleBit_ie :
    s.sampleBit.ie = s.ie :=
  State.sampleLine_ie s
@[simp] theorem State.sampleBit_busy :
    s.sampleBit.busy = s.busy :=
  State.sampleLine_busy s
@[simp] theorem State.sampleBit_op :
    s.sampleBit.op = s.op :=
  State.sampleLine_op s
@[simp] theorem State.sampleBit_pos :
    s.sampleBit.pos = s.pos :=
  State.sampleLine_pos s
@[simp] theorem State.sampleBit_bitcnt :
    s.sampleBit.bitcnt = s.bitcnt :=
  State.sampleLine_bitcnt s
@[simp] theorem State.sampleBit_sh :
    s.sampleBit.sh = setBit s.sh s.bitcnt.toNat (bitOfLevel s.sampleLine.1) := rfl
@[simp] theorem State.sampleBit_present :
    s.sampleBit.present = s.present :=
  State.sampleLine_present s
@[simp] theorem State.sampleBit_rsp :
    s.sampleBit.rsp = s.rsp :=
  State.sampleLine_rsp s
@[simp] theorem State.sampleBit_dly :
    s.sampleBit.dly = s.dly :=
  State.sampleLine_dly s
@[simp] theorem State.sampleBit_rspValid :
    s.sampleBit.rspValid = false := rfl
@[simp] theorem State.sampleBit_irqSuspend :
    s.sampleBit.irqSuspend = false := rfl
@[simp] theorem State.sampleBit_irqResume :
    s.sampleBit.irqResume = false := rfl
@[simp] theorem State.sampleBit_cfg :
    s.sampleBit.cfg = s.cfg :=
  State.sampleLine_cfg s
@[simp] theorem State.sampleBit_tolerance :
    s.sampleBit.tolerance = s.tolerance :=
  State.sampleLine_tolerance s
@[simp] theorem State.sampleBit_now :
    s.sampleBit.now = s.now :=
  State.sampleLine_now s
@[simp] theorem State.sampleBit_trace :
    s.sampleBit.trace = s.trace ++ [(s.now, .sample s.sampleLine.1)] :=
  State.sampleLine_trace s
@[simp] theorem State.sampleBit_program :
    s.sampleBit.program = s.program :=
  State.sampleLine_program s
@[simp] theorem State.sampleBit_slotReq :
    s.sampleBit.slotReq = s.slotReq :=
  State.sampleLine_slotReq s
@[simp] theorem State.sampleBit_schedule :
    s.sampleBit.schedule = s.schedule :=
  State.sampleLine_schedule s
@[simp] theorem State.sampleBit_env : s.sampleBit.env = s.sampleLine.2.env := rfl
@[simp] theorem State.sampleBit_draws : s.sampleBit.draws = s.sampleLine.2.draws := rfl

end Sys2Proof.Machine
end

