-- ==== Sys2Proof/Laws/Ops.lean ====
section
/-! SUPPORT. What each shared operation can do: the length of a delay, the bits of a byte, a sample,
the words of the ports, a traversal of a trace. -/

namespace Sys2Proof.Machine

/-! ### Delays -/

/-- A delay's length depends on the tolerance, `ie`, the durations and the number of the draw. -/
theorem State.drawLength_congr {s t : State} (k : Duration) (h1 : s.tolerance = t.tolerance)
    (h2 : s.ie = t.ie) (h3 : s.cfg = t.cfg) (h4 : s.draws = t.draws) :
    s.drawLength k = t.drawLength k := by
  simp [State.drawLength, h1, h2, h3, h4]

/-- `lengthNear` stays within `jitter` of `n`. -/
theorem lengthNear_bounds (j n f : Nat) : n ≤ lengthNear j n f + j ∧ lengthNear j n f ≤ n + j := by
  have : f % (n + j - (n - j) + 1) < n + j - (n - j) + 1 := Nat.mod_lt f (Nat.succ_pos _)
  unfold lengthNear
  split <;> omega

/-- In the nominal model a delay lasts exactly its duration (R103). -/
theorem State.drawLength_nominal {s : State} (h : s.tolerance = .nominal) (k : Duration) :
    s.drawLength k = time s.cfg k := by
  have h0 : (0 : Fin 3).val = 0 := rfl
  have := lengthNear_bounds (0 : Fin 3).val (s.cfg.get k).toNat (Config.freeDelay s.draws)
  simp only [State.drawLength, delayLength, h, Tolerance.nominal, time]
  omega

/-- A delay is never shorter than its duration by more than `JITTER` (R111). -/
theorem State.le_drawLength (s : State) (k : Duration) :
    time s.cfg k ≤ s.drawLength k + s.tolerance.jitter.val := by
  unfold State.drawLength delayLength time
  split
  · simp only [lengthFrom]
    omega
  · exact (lengthNear_bounds _ _ _).1
  · exact (lengthNear_bounds _ _ _).1

/-- It is longer by more than `JITTER` only if stretched (R111). -/
theorem State.drawLength_le {s : State} (h : s.tolerance.stretch = .none ∨ s.ie = false)
    (k : Duration) : s.drawLength k ≤ time s.cfg k + s.tolerance.jitter.val := by
  unfold State.drawLength delayLength time
  split
  · rcases h with h | h <;> simp_all
  · exact (lengthNear_bounds _ _ _).2
  · exact (lengthNear_bounds _ _ _).2

/-! ### Bits of a byte -/

/-- Bit insertion changes bit `i` only (R159 (2)). -/
theorem getLsbD_setBit (v : Byte) (k : BitVec 3) (b : Bool) {i : Nat} (hi : i < 8) :
    (setBit v k.toNat b).getLsbD i = if i = k.toNat then b else v.getLsbD i := by
  have hk : k.toNat < 8 := k.isLt
  generalize k.toNat = n at hk
  interval_cases i <;> interval_cases n <;> cases b <;> simp [setBit]

/-- Bit extraction is the byte's bit (R152). -/
theorem bitAt_eq_getLsbD (v : Byte) (i : Nat) : bitAt v i = v.getLsbD i := by
  rw [BitVec.getLsbD, Nat.testBit_eq_decide_div_mod_eq]
  rfl

/-! ### Samples -/

/-- A read of the line changes only the environment's own fields. -/
theorem State.readLine_frame (s : State) :
    s.readLine.2 = { s with env := s.readLine.2.env, draws := s.readLine.2.draws } := by
  ext <;> simp

/-- A scripted sample on a released line takes the next answer (20_memory.md R58). -/
theorem State.sampleLine_script {s : State} {l : Level} {rest : List Level}
    (hm : s.lineMode = .float) (he : s.env = .script (l :: rest)) :
    s.sampleLine.1 = l ∧ s.sampleLine.2.env = .script rest ∧
      s.sampleLine.2.draws = s.draws := by
  simp [State.sampleLine, State.readLine, hm, State.answer, he, State.emit, State.lowerStrobes]

/-- A timed sample on a released line shows the last change at or before now (R58). -/
theorem State.sampleLine_timed {s : State} {l : Level} {changes : List (Nat × Level)}
    (hm : s.lineMode = .float) (he : s.env = .timed l changes) :
    s.sampleLine.1 = levelAt l changes s.now ∧ s.sampleLine.2.env = s.env ∧
      s.sampleLine.2.draws = s.draws := by
  simp [State.sampleLine, State.readLine, hm, State.answer, he, State.emit, State.lowerStrobes]

/-! ### Port words -/

@[simp] theorem wordOfBytes_bytesOfWord (w : PortWord) : wordOfBytes (bytesOfWord w) = .ok w := by
  cases w with
  | slot r => revert r; decide
  | command c =>
    have hc : c.toNat < 1024 := c.isLt
    have h : c.toNat % 256 + 256 * (c.toNat / 256 % 256) = c.toNat := by omega
    simp only [bytesOfWord, wordOfBytes, BitVec.toNat_ofNat]
    rw [if_pos (by omega), h]
    simp

@[simp] theorem decodeBytes_bytesOfWord (w : PortWord) : decodeBytes (bytesOfWord w) = .ok (decode w) := by
  simp [decodeBytes]

/-- The operation of a command word that was put together (R80, R82). -/
@[simp] theorem operationOf_commandWord (o : Operation) (data : Byte) :
    operationOf (commandOp (commandWord o data)) = o := by
  cases o <;> (revert data; decide)

/-- The data of a command word that was put together (R80). -/
@[simp] theorem commandData_commandWord (o : Operation) (data : Byte) :
    commandData (commandWord o data) = data := by
  cases o <;> (revert data; decide)

/-- The command words as the spec writes them (R82, R83, R151). -/
theorem commandWord_reset (data : Byte) : commandWord .reset data = 0x000 + data.setWidth 10 := by
  revert data
  decide

theorem commandWord_readByte (data : Byte) :
    commandWord .readByte data = 0x100 + data.setWidth 10 := by
  revert data
  decide

theorem commandWord_writeByte (data : Byte) :
    commandWord .writeByte data = 0x200 + data.setWidth 10 := by
  revert data
  decide

theorem commandWord_configure (data : Byte) :
    commandWord .configure data = 0x300 + data.setWidth 10 := by
  revert data
  decide

/-! ### Traces -/

@[simp] theorem count_append (p : Event → Bool) (a b : Trace) : count p (a ++ b) = count p a + count p b := by
  simp [count]

@[simp] theorem count_nil (p : Event → Bool) : count p [] = 0 := rfl

@[simp] theorem count_cons (p : Event → Bool) (e : Nat × Event) (a : Trace) :
    count p (e :: a) = count p a + if p e.2 then 1 else 0 := by
  simp [count, List.countP_cons]

end Sys2Proof.Machine
end

