-- ==== Sys2Proof/Laws/Slots.lean ====
section
/-! SUPPORT. What a bit slot and an iteration of a byte operation do to each field, and to the time
and the trace in the nominal model (spec 42_write_bit_slot.md R130, 43_read_bit_slot.md R140). -/

namespace Sys2Proof.Machine

variable (s : State) (bit : Bool)

/-! ### The write slot -/

@[simp] theorem State.writeSlot_lineMode : (s.writeSlot bit).lineMode = .float := by
  cases bit <;> simp [State.writeSlot]
@[simp] theorem State.writeSlot_ie : (s.writeSlot bit).ie = true := by
  cases bit <;> simp [State.writeSlot]
@[simp] theorem State.writeSlot_busy : (s.writeSlot bit).busy = s.busy := by
  cases bit <;> simp [State.writeSlot]
@[simp] theorem State.writeSlot_op : (s.writeSlot bit).op = s.op := by
  cases bit <;> simp [State.writeSlot]
@[simp] theorem State.writeSlot_pos : (s.writeSlot bit).pos = s.pos := by
  cases bit <;> simp [State.writeSlot]
@[simp] theorem State.writeSlot_bitcnt : (s.writeSlot bit).bitcnt = s.bitcnt := by
  cases bit <;> simp [State.writeSlot]
@[simp] theorem State.writeSlot_sh : (s.writeSlot bit).sh = s.sh := by
  cases bit <;> simp [State.writeSlot]
@[simp] theorem State.writeSlot_present : (s.writeSlot bit).present = s.present := by
  cases bit <;> simp [State.writeSlot]
@[simp] theorem State.writeSlot_rsp : (s.writeSlot bit).rsp = s.rsp := by
  cases bit <;> simp [State.writeSlot]
@[simp] theorem State.writeSlot_dly : (s.writeSlot bit).dly = 0 := by
  cases bit <;> simp [State.writeSlot]
@[simp] theorem State.writeSlot_rspValid : (s.writeSlot bit).rspValid = false := by
  cases bit <;> simp [State.writeSlot]
@[simp] theorem State.writeSlot_irqSuspend : (s.writeSlot bit).irqSuspend = false := by
  cases bit <;> simp [State.writeSlot]
@[simp] theorem State.writeSlot_irqResume : (s.writeSlot bit).irqResume = true := by
  cases bit <;> simp [State.writeSlot]
@[simp] theorem State.writeSlot_cfg : (s.writeSlot bit).cfg = s.cfg := by
  cases bit <;> simp [State.writeSlot]
@[simp] theorem State.writeSlot_tolerance : (s.writeSlot bit).tolerance = s.tolerance := by
  cases bit <;> simp [State.writeSlot]
@[simp] theorem State.writeSlot_program : (s.writeSlot bit).program = s.program := by
  cases bit <;> simp [State.writeSlot]
@[simp] theorem State.writeSlot_slotReq : (s.writeSlot bit).slotReq = s.slotReq := by
  cases bit <;> simp [State.writeSlot]
@[simp] theorem State.writeSlot_schedule : (s.writeSlot bit).schedule = s.schedule := by
  cases bit <;> simp [State.writeSlot]
@[simp] theorem State.writeSlot_env : (s.writeSlot bit).env = s.env := by
  cases bit <;> simp [State.writeSlot]
@[simp] theorem State.writeSlot_draws : (s.writeSlot bit).draws = s.draws + 2 := by
  cases bit <;> simp [State.writeSlot]

/-- The state in which the read slot takes its sample. -/
def State.beforeSample (s : State) : State :=
  (((s.suspendIrq.setLine .driveLow).delay .readInit).setLine .float).delay .readSample

theorem State.readSlot_eq : s.readSlot = s.beforeSample.sampleBit.resumeIrq := rfl

/-! ### The read slot -/

@[simp] theorem State.readSlot_lineMode :
    s.readSlot.lineMode = .float := by
  simp [State.readSlot_eq, State.beforeSample]
@[simp] theorem State.readSlot_ie :
    s.readSlot.ie = true := by
  simp [State.readSlot_eq, State.beforeSample]
@[simp] theorem State.readSlot_busy :
    s.readSlot.busy = s.busy := by
  simp [State.readSlot_eq, State.beforeSample]
@[simp] theorem State.readSlot_op :
    s.readSlot.op = s.op := by
  simp [State.readSlot_eq, State.beforeSample]
@[simp] theorem State.readSlot_pos :
    s.readSlot.pos = s.pos := by
  simp [State.readSlot_eq, State.beforeSample]
@[simp] theorem State.readSlot_bitcnt :
    s.readSlot.bitcnt = s.bitcnt := by
  simp [State.readSlot_eq, State.beforeSample]
@[simp] theorem State.readSlot_sh :
    s.readSlot.sh = setBit s.sh s.bitcnt.toNat (bitOfLevel s.beforeSample.sampleLine.1) := by
  simp [State.readSlot_eq, State.beforeSample]
@[simp] theorem State.readSlot_present :
    s.readSlot.present = s.present := by
  simp [State.readSlot_eq, State.beforeSample]
@[simp] theorem State.readSlot_rsp :
    s.readSlot.rsp = s.rsp := by
  simp [State.readSlot_eq, State.beforeSample]
@[simp] theorem State.readSlot_dly :
    s.readSlot.dly = 0 := by
  simp [State.readSlot_eq, State.beforeSample]
@[simp] theorem State.readSlot_rspValid :
    s.readSlot.rspValid = false := by
  simp [State.readSlot_eq, State.beforeSample]
@[simp] theorem State.readSlot_irqSuspend :
    s.readSlot.irqSuspend = false := by
  simp [State.readSlot_eq, State.beforeSample]
@[simp] theorem State.readSlot_irqResume :
    s.readSlot.irqResume = true := by
  simp [State.readSlot_eq, State.beforeSample]
@[simp] theorem State.readSlot_cfg :
    s.readSlot.cfg = s.cfg := by
  simp [State.readSlot_eq, State.beforeSample]
@[simp] theorem State.readSlot_tolerance :
    s.readSlot.tolerance = s.tolerance := by
  simp [State.readSlot_eq, State.beforeSample]
@[simp] theorem State.readSlot_program :
    s.readSlot.program = s.program := by
  simp [State.readSlot_eq, State.beforeSample]
@[simp] theorem State.readSlot_slotReq :
    s.readSlot.slotReq = s.slotReq := by
  simp [State.readSlot_eq, State.beforeSample]
@[simp] theorem State.readSlot_schedule :
    s.readSlot.schedule = s.schedule := by
  simp [State.readSlot_eq, State.beforeSample]
@[simp] theorem State.readSlot_env :
    s.readSlot.env = s.beforeSample.sampleLine.2.env := by
  simp [State.readSlot_eq, State.beforeSample]
@[simp] theorem State.readSlot_draws :
    s.readSlot.draws = s.beforeSample.sampleLine.2.draws := by
  simp [State.readSlot_eq, State.beforeSample]

/-! ### The nominal model -/

theorem State.writeSlot_now (h : s.tolerance = .nominal) :
    (s.writeSlot bit).now = s.now + writeSlotTime s.cfg := by
  cases bit <;> simp [State.writeSlot, State.drawLength_nominal, h, writeSlotTime, Nat.add_assoc]

theorem State.writeSlot_trace (h : s.tolerance = .nominal) :
    (s.writeSlot bit).trace = s.trace ++ writeSlotTrace s.cfg s.now bit := by
  cases bit <;> simp [State.writeSlot, State.drawLength_nominal, h, writeSlotTrace, delayEntry]

theorem State.readSlot_now (h : s.tolerance = .nominal) :
    s.readSlot.now = s.now + readSlotTime s.cfg := by
  simp [State.readSlot, State.drawLength_nominal, h, readSlotTime, Nat.add_assoc]

theorem State.readSlot_trace (h : s.tolerance = .nominal) :
    s.readSlot.trace = s.trace ++ readSlotTrace s.cfg s.now s.beforeSample.sampleLine.1 := by
  simp [State.readSlot_eq, State.beforeSample, State.drawLength_nominal, h, readSlotTrace,
    delayEntry]

end Sys2Proof.Machine
end

