-- ==== Sys2Proof/Laws/Bytes.lean ====
section
/-! SUPPORT. What an iteration of the `byte_composer` does (spec 44_byte_composer.md R150, R153), for
any slot, and the loop's position (10_state.md R26, R27). -/

namespace Sys2Proof.Machine

variable (slot : State → State) (s : State)

/-! ### One iteration -/

/-- A delay's length does not depend on the position. -/
theorem State.advance_drawLength (n : BitVec 7) (k : Duration) :
    (s.advance n).drawLength k = s.drawLength k :=
  State.drawLength_congr k (by simp) (by simp) (by simp) (by simp)

@[simp] theorem State.byteIteration_lineMode :
    (State.byteIteration slot s).lineMode = (slot s).lineMode := by
  simp [State.byteIteration]
@[simp] theorem State.byteIteration_ie :
    (State.byteIteration slot s).ie = (slot s).ie := by
  simp [State.byteIteration]
@[simp] theorem State.byteIteration_busy :
    (State.byteIteration slot s).busy = (slot s).busy := by
  simp [State.byteIteration]
@[simp] theorem State.byteIteration_op :
    (State.byteIteration slot s).op = (slot s).op := by
  simp [State.byteIteration]
@[simp] theorem State.byteIteration_sh :
    (State.byteIteration slot s).sh = (slot s).sh := by
  simp [State.byteIteration]
@[simp] theorem State.byteIteration_present :
    (State.byteIteration slot s).present = (slot s).present := by
  simp [State.byteIteration]
@[simp] theorem State.byteIteration_rsp :
    (State.byteIteration slot s).rsp = (slot s).rsp := by
  simp [State.byteIteration]
@[simp] theorem State.byteIteration_cfg :
    (State.byteIteration slot s).cfg = (slot s).cfg := by
  simp [State.byteIteration]
@[simp] theorem State.byteIteration_tolerance :
    (State.byteIteration slot s).tolerance = (slot s).tolerance := by
  simp [State.byteIteration]
@[simp] theorem State.byteIteration_program :
    (State.byteIteration slot s).program = (slot s).program := by
  simp [State.byteIteration]
@[simp] theorem State.byteIteration_slotReq :
    (State.byteIteration slot s).slotReq = (slot s).slotReq := by
  simp [State.byteIteration]
@[simp] theorem State.byteIteration_schedule :
    (State.byteIteration slot s).schedule = (slot s).schedule := by
  simp [State.byteIteration]
@[simp] theorem State.byteIteration_env :
    (State.byteIteration slot s).env = (slot s).env := by
  simp [State.byteIteration]
@[simp] theorem State.byteIteration_dly :
    (State.byteIteration slot s).dly = 0 := by
  simp [State.byteIteration]
@[simp] theorem State.byteIteration_rspValid :
    (State.byteIteration slot s).rspValid = false := by
  simp [State.byteIteration]
@[simp] theorem State.byteIteration_irqSuspend :
    (State.byteIteration slot s).irqSuspend = false := by
  simp [State.byteIteration]
@[simp] theorem State.byteIteration_irqResume :
    (State.byteIteration slot s).irqResume = false := by
  simp [State.byteIteration]
@[simp] theorem State.byteIteration_draws :
    (State.byteIteration slot s).draws = (slot s).draws + 1 := by
  simp [State.byteIteration]

/-- The recovery delay begins where the slot ended, and its length does not depend on `pos`. -/
theorem State.byteIteration_now :
    (State.byteIteration slot s).now = (slot s).now + (slot s).drawLength .recovery := by
  simp [State.byteIteration, State.advance_drawLength]

theorem State.byteIteration_trace :
    (State.byteIteration slot s).trace =
      (slot s).trace ++ [((slot s).now, .delay .recovery ((slot s).drawLength .recovery))] := by
  simp [State.byteIteration, State.advance_drawLength]

/-- After iteration `i` the position is at the next group, and `bitcnt` follows but stays 7 at the
end (R26, R107). -/
theorem State.byteIteration_position {i : Nat} (hi : i < 8) (hop : isByteOperation (slot s).op = true)
    (hpos : (slot s).pos = BitVec.ofNat 7 (8 * i)) :
    (State.byteIteration slot s).pos = BitVec.ofNat 7 (8 * (i + 1)) ∧
      (State.byteIteration slot s).bitcnt = BitVec.ofNat 3 (min 7 (i + 1)) := by
  simp only [State.byteIteration, State.advance_pos, State.advance_bitcnt, State.advance_op,
    State.delay_pos, State.delay_bitcnt, State.delay_op, hop, hpos]
  interval_cases i <;> simp

/-! ### The slot of a WRITE_BYTE -/

@[simp] theorem State.writeCurrentBit_lineMode : s.writeCurrentBit.lineMode = .float := by
  simp [State.writeCurrentBit]
@[simp] theorem State.writeCurrentBit_ie : s.writeCurrentBit.ie = true := by
  simp [State.writeCurrentBit]
@[simp] theorem State.writeCurrentBit_busy : s.writeCurrentBit.busy = s.busy := by
  simp [State.writeCurrentBit]
@[simp] theorem State.writeCurrentBit_op : s.writeCurrentBit.op = s.op := by
  simp [State.writeCurrentBit]
@[simp] theorem State.writeCurrentBit_pos : s.writeCurrentBit.pos = s.pos := by
  simp [State.writeCurrentBit]
@[simp] theorem State.writeCurrentBit_bitcnt : s.writeCurrentBit.bitcnt = s.bitcnt := by
  simp [State.writeCurrentBit]
@[simp] theorem State.writeCurrentBit_sh : s.writeCurrentBit.sh = s.sh := by
  simp [State.writeCurrentBit]
@[simp] theorem State.writeCurrentBit_present : s.writeCurrentBit.present = s.present := by
  simp [State.writeCurrentBit]
@[simp] theorem State.writeCurrentBit_rsp : s.writeCurrentBit.rsp = s.rsp := by
  simp [State.writeCurrentBit]
@[simp] theorem State.writeCurrentBit_dly : s.writeCurrentBit.dly = 0 := by
  simp [State.writeCurrentBit]
@[simp] theorem State.writeCurrentBit_rspValid : s.writeCurrentBit.rspValid = false := by
  simp [State.writeCurrentBit]
@[simp] theorem State.writeCurrentBit_irqSuspend : s.writeCurrentBit.irqSuspend = false := by
  simp [State.writeCurrentBit]
@[simp] theorem State.writeCurrentBit_irqResume : s.writeCurrentBit.irqResume = true := by
  simp [State.writeCurrentBit]
@[simp] theorem State.writeCurrentBit_cfg : s.writeCurrentBit.cfg = s.cfg := by
  simp [State.writeCurrentBit]
@[simp] theorem State.writeCurrentBit_tolerance : s.writeCurrentBit.tolerance = s.tolerance := by
  simp [State.writeCurrentBit]
@[simp] theorem State.writeCurrentBit_program : s.writeCurrentBit.program = s.program := by
  simp [State.writeCurrentBit]
@[simp] theorem State.writeCurrentBit_slotReq : s.writeCurrentBit.slotReq = s.slotReq := by
  simp [State.writeCurrentBit]
@[simp] theorem State.writeCurrentBit_schedule : s.writeCurrentBit.schedule = s.schedule := by
  simp [State.writeCurrentBit]
@[simp] theorem State.writeCurrentBit_env : s.writeCurrentBit.env = s.env := by
  simp [State.writeCurrentBit]
@[simp] theorem State.writeCurrentBit_draws : s.writeCurrentBit.draws = s.draws + 2 := by
  simp [State.writeCurrentBit]

/-! ### The loop: what every iteration keeps, and what the last one leaves -/

/-- A projection that every iteration keeps is kept by the loop. -/
theorem State.byteIterations_keeps {α : Type} (f : State → α)
    (h : ∀ s, f (State.byteIteration slot s) = f s) (n : Nat) :
    ∀ s, f (State.byteIterations slot n s) = f s := by
  induction n with
  | zero => exact fun _ => rfl
  | succ n ih => exact fun s => (ih _).trans (h s)

/-- What every iteration leaves true, a loop of at least one leaves true. -/
theorem State.byteIterations_ends (P : State → Prop) (h : ∀ s, P (State.byteIteration slot s))
    {n : Nat} (hn : 0 < n) : ∀ s, P (State.byteIterations slot n s) := by
  induction n with
  | zero => omega
  | succ n ih =>
    intro s
    cases n with
    | zero => exact h s
    | succ n => exact ih n.succ_pos _

/-- The rest of the loop from iteration `i` ends at position 64 with `bitcnt` 7 (R26, R27). -/
theorem State.byteIterations_position (hop : ∀ s, (slot s).op = s.op)
    (hpos : ∀ s, (slot s).pos = s.pos) (n : Nat) :
    ∀ (s : State) (i : Nat), i + n = 8 → isByteOperation s.op = true →
      s.pos = BitVec.ofNat 7 (8 * i) → s.bitcnt = BitVec.ofNat 3 (min 7 i) →
      (State.byteIterations slot n s).pos = 64 ∧ (State.byteIterations slot n s).bitcnt = 7 ∧
        (State.byteIterations slot n s).op = s.op := by
  induction n with
  | zero =>
    intro s i hi _ hp hb
    obtain rfl : i = 8 := by omega
    exact ⟨hp, hb, rfl⟩
  | succ n ih =>
    intro s i hi ho hp hb
    have h1 := State.byteIteration_position slot s (i := i) (by omega) (by rw [hop, ho])
      (by rw [hpos, hp])
    have h2 := ih (State.byteIteration slot s) (i + 1) (by omega) (by simp [hop, ho]) h1.1 h1.2
    exact ⟨h2.1, h2.2.1, h2.2.2.trans (by simp [hop])⟩

end Sys2Proof.Machine
end

