-- ==== Sys2Proof/Laws/PerInstr.lean ====
section
/-! SUPPORT. Statements made of every instruction, one lemma for each constructor. -/

namespace Sys2Proof.Laws

/-- The word of an instruction belongs to the row of the opcode table that the instruction stands
for (30_encoding.md R82, R86). -/
def RowMatch.Statement (i : Instr) : Prop := (rowOf i).covers (encode i) = true

theorem RowMatch.reset (data : Byte) : RowMatch.Statement (.reset data) := by
  unfold RowMatch.Statement
  revert data
  decide

theorem RowMatch.readByte (data : Byte) : RowMatch.Statement (.readByte data) := by
  unfold RowMatch.Statement
  revert data
  decide

theorem RowMatch.writeByte (value : Byte) : RowMatch.Statement (.writeByte value) := by
  unfold RowMatch.Statement
  revert value
  decide

theorem RowMatch.configure (data : Byte) : RowMatch.Statement (.configure data) := by
  unfold RowMatch.Statement
  revert data
  decide

theorem RowMatch.writeBit (bit : Bool) : RowMatch.Statement (.writeBit bit) := by
  unfold RowMatch.Statement
  revert bit
  decide

theorem RowMatch.readBit (ignored : Bool) : RowMatch.Statement (.readBit ignored) := by
  unfold RowMatch.Statement
  revert ignored
  decide

end Sys2Proof.Laws
end

