-- ==== Sys2Proof/Laws/Sequencer.lean ====
section
/-! SUPPORT. What one micro-step can do, the microsequences entry by entry, and the slots with
tolerance (spec 40_sequencer_primitives.md R107, R108, R110, R111). -/

namespace Sys2Proof.Machine

/-! ### One micro-step -/

/-- What no micro-step writes (R107; 10_state.md R24, R26, R27, R28, R30). -/
theorem State.perform_frame (s : State) (bit : Bool) (m : MicroStep) :
    (s.perform bit m).busy = s.busy ∧ (s.perform bit m).op = s.op ∧
    (s.perform bit m).pos = s.pos ∧ (s.perform bit m).bitcnt = s.bitcnt ∧
    (s.perform bit m).rsp = s.rsp ∧ (s.perform bit m).cfg = s.cfg ∧
    (s.perform bit m).tolerance = s.tolerance ∧ (s.perform bit m).program = s.program ∧
    (s.perform bit m).schedule = s.schedule ∧ (s.perform bit m).slotReq = s.slotReq := by
  cases m with
  | lineIfBit m => cases bit <;> simp [State.perform]
  | sample d => cases d <;> simp [State.perform]
  | line m => simp [State.perform]
  | delay k => simp [State.perform]
  | irqSuspend => simp [State.perform]
  | irqResume => simp [State.perform]

/-- A micro-step appends at most one entry, at the present time, and time does not go back. -/
theorem State.perform_trace (s : State) (bit : Bool) (m : MicroStep) :
    s.now ≤ (s.perform bit m).now ∧
    ((s.perform bit m).trace = s.trace ∨
      ∃ e, (s.perform bit m).trace = s.trace ++ [(s.now, e)]) := by
  cases m with
  | lineIfBit m => cases bit <;> simp [State.perform]
  | sample d => cases d <;> simp [State.perform]
  | line m => simp [State.perform]
  | delay k => simp [State.perform]
  | irqSuspend => simp [State.perform]
  | irqResume => simp [State.perform]

/-- Steps of the engine add up. -/
theorem State.engineSteps_add (a b : Nat) :
    ∀ s : State, s.engineSteps (a + b) = (s.engineSteps a).engineSteps b := by
  induction a with
  | zero => exact fun s => by rw [Nat.zero_add, State.engineSteps]
  | succ a ih => exact fun s => by rw [Nat.succ_add, State.engineSteps, ih, State.engineSteps]

/-! ### The microsequences (R108) -/

theorem microsequence_length_le (o : Operation) : (microsequence o).length ≤ 64 := by
  cases o <;> decide

theorem microsequence_writeByte_at : ∀ p < 64, (microsequence .writeByte)[p]? =
    (writeSlotSteps ++ [.delay .recovery])[p % 8]? := by decide

theorem microsequence_readByte_at : ∀ p < 64, (microsequence .readByte)[p]? =
    (readSlotSteps ++ [.delay .recovery])[p % 8]? := by decide

/-! ### The slots with tolerance (R111) -/

/-- The write slot's trace and duration for the lengths `a` and `b` that its delays take. -/
theorem State.writeSlot_lengths (s : State) (bit : Bool) : ∃ a b : Nat,
    (s.writeSlot bit).now = s.now + a + b ∧
    (s.writeSlot bit).trace = s.trace ++
      ([(s.now, .irqSuspend), (s.now, .line .driveLow), (s.now, .delay .slotInit a)] ++
        (if bit then [(s.now + a, .line .float)] else []) ++
        [(s.now + a, .delay .hold b), (s.now + a + b, .line .float),
          (s.now + a + b, .irqResume)]) ∧
    time s.cfg .slotInit ≤ a + s.tolerance.jitter.val ∧
    a ≤ time s.cfg .slotInit + s.tolerance.jitter.val ∧
    time s.cfg .hold ≤ b + s.tolerance.jitter.val ∧
    b ≤ time s.cfg .hold + s.tolerance.jitter.val := by
  let u := s.suspendIrq.setLine .driveLow
  let v := if bit then (u.delay .slotInit).setLine .float else u.delay .slotInit
  refine ⟨u.drawLength .slotInit, v.drawLength .hold, ?_, ?_, ?_, ?_, ?_, ?_⟩
  · cases bit <;> simp [State.writeSlot, u, v]
  · cases bit <;> simp [State.writeSlot, u, v]
  · simpa [u] using u.le_drawLength .slotInit
  · simpa [u] using u.drawLength_le (by simp [u]) .slotInit
  · cases bit <;> simpa [u, v] using v.le_drawLength .hold
  · cases bit <;> simpa [u, v] using v.drawLength_le (by simp [u, v]) .hold

/-- The read slot's trace and duration for the lengths `a` and `b` that its delays take. -/
theorem State.readSlot_lengths (s : State) : ∃ a b : Nat,
    s.readSlot.now = s.now + a + b ∧
    s.readSlot.trace = s.trace ++
      [(s.now, .irqSuspend), (s.now, .line .driveLow), (s.now, .delay .readInit a),
        (s.now + a, .line .float), (s.now + a, .delay .readSample b),
        (s.now + a + b, .sample s.beforeSample.sampleLine.1), (s.now + a + b, .irqResume)] ∧
    time s.cfg .readInit ≤ a + s.tolerance.jitter.val ∧
    a ≤ time s.cfg .readInit + s.tolerance.jitter.val ∧
    time s.cfg .readSample ≤ b + s.tolerance.jitter.val ∧
    b ≤ time s.cfg .readSample + s.tolerance.jitter.val := by
  let u := s.suspendIrq.setLine .driveLow
  let v := (u.delay .readInit).setLine .float
  refine ⟨u.drawLength .readInit, v.drawLength .readSample, ?_, ?_, ?_, ?_, ?_, ?_⟩
  · simp [State.readSlot, u, v]
  · simp [State.readSlot_eq, State.beforeSample, u, v]
  · simpa [u] using u.le_drawLength .readInit
  · simpa [u] using u.drawLength_le (by simp [u]) .readInit
  · simpa [u, v] using v.le_drawLength .readSample
  · simpa [u, v] using v.drawLength_le (by simp [u, v]) .readSample

/-- Critical sections in sequence. -/
theorem sectionsWellFormed_append (a b : Trace) : ∀ inside, sectionsWellFormed inside a = true →
    sectionsWellFormed inside (a ++ b) = sectionsWellFormed false b := by
  induction a with
  | nil => intro inside h; cases inside <;> simp_all [sectionsWellFormed]
  | cons e a ih =>
    obtain ⟨t, e⟩ := e
    intro inside h
    cases inside <;> cases e <;> simp_all [sectionsWellFormed]

/-- The lengths of critical sections in sequence. -/
theorem sectionLengths_append (a b : Trace) : ∀ since : Option Nat,
    sectionsWellFormed since.isSome a = true →
      sectionLengths since (a ++ b) = sectionLengths since a ++ sectionLengths none b := by
  induction a with
  | nil => intro since h; cases since <;> simp_all [sectionsWellFormed, sectionLengths]
  | cons e a ih =>
    obtain ⟨t, e⟩ := e
    have closed := ih none
    have opened := fun u => ih (some u)
    intro since h
    cases since <;> cases e <;> simp_all [sectionsWellFormed, sectionLengths]

end Sys2Proof.Machine
end

