-- ==== Sys2Proof/Tests/Slice0.lean ====
section
/-! SUPPORT. The model's own tests: words written out from the spec's encodings, ill-formed terms that
the checks refuse, vectors of spec/95_test_vectors.md (configuration `TV`, scripted oracle), and for
every obligation with hypotheses a state that meets them. -/

namespace Sys2Proof.Tests

open Sys2Proof.Machine

/-! ### Words (30_encoding.md R82, R86; vectors V13, V15) -/

theorem test_word_reset : decodeTableWord 16 0b0000000000 = some (.reset 0x00) := by decide
theorem test_word_reset_data : decodeTableWord 16 0b0011111111 = some (.reset 0xFF) := by decide
theorem test_word_read_byte : decodeTableWord 16 0b0100000000 = some (.readByte 0x00) := by decide
theorem test_word_read_byte_data : decodeTableWord 16 0b0110100101 = some (.readByte 0xA5) := by decide
theorem test_word_write_byte : decodeTableWord 16 0b1010100101 = some (.writeByte 0xA5) := by decide
theorem test_word_write_byte_bit0 : decodeTableWord 16 0b1000000001 = some (.writeByte 0x01) := by
  decide
theorem test_word_configure : decodeTableWord 16 0b1100000000 = some (.configure 0x00) := by decide
theorem test_word_configure_last : decodeTableWord 16 0b1111111111 = some (.configure 0xFF) := by decide
theorem test_word_write_bit_0 : decodeTableWord 8 0b00 = some (.writeBit false) := by decide
theorem test_word_write_bit_1 : decodeTableWord 8 0b01 = some (.writeBit true) := by decide
theorem test_word_read_bit : decodeTableWord 8 0b10 = some (.readBit false) := by decide
theorem test_word_read_bit_ignored : decodeTableWord 8 0b11 = some (.readBit true) := by decide

theorem test_no_word :
    decodeBytes [] = .error .empty ∧ decodeBytes [0x04] = .error .slotTooWide ∧
    decodeBytes [0x00, 0x04] = .error .commandTooWide ∧
    decodeBytes [0x00, 0x00, 0x00] = .error .tooLong := by decide

/-! ### WellFormed: what each check refuses -/

/-- The configuration `TV` (section 1). -/
def tv : TimingConfig where
  resetPulse := 500
  presenceWait := 60
  postPresence := 470
  slotInit := 10
  hold := 50
  recovery := 60
  readInit := 2
  readSample := 10

def allZero : TimingConfig where
  resetPulse := 0
  presenceWait := 0
  postPresence := 0
  slotInit := 0
  hold := 0
  recovery := 0
  readInit := 0
  readSample := 0

theorem test_wf_tv : tv.WF := by decide
theorem test_wf_refuses_all_zero : ¬ allZero.WF := by decide
theorem test_program_refuses_slot : wellFormedProgram [.reset 0, .writeBit true] = false := by decide
theorem test_canonical_refuses_ignored_data : (Instr.reset 0xFF).isCanonical = false := by decide

/-! ### Vectors -/

/-- The clean entry (70_reset_and_hazards.md R212) under `TV`, with scripted answers. -/
def entry (answers : List Level) : State :=
  { State.reset with cfg := tv, env := .script answers }

/-- The state an outcome goes on with. -/
def goesOn : Host.Outcome State Fault Refusal → Option State
  | .next s => some s
  | .fault _ => none
  | .refused _ => none

/-- What a vector looks at. -/
def seen (o : Host.Outcome State Fault Refusal) : Option (Byte × Nat × Bool × Byte) :=
  (goesOn o).map fun s => (s.rsp, s.now, s.ie, s.sh)

def traceOf (o : Host.Outcome State Fault Refusal) : Trace :=
  ((goesOn o).map State.trace).getD []

/-- V1. -/
theorem test_reset_present : traceOf (exec (.reset 0x00) (entry [.low])) =
    [(0, .accept 0x000), (0, .line .driveLow), (0, .delay .resetPulse 500), (500, .line .float),
      (500, .delay .presenceWait 60), (560, .sample .low), (560, .delay .postPresence 470),
      (1030, .complete 0x01)] := by decide

/-- V2. -/
theorem test_reset_absent :
    (goesOn (exec (.reset 0x00) (entry [.high]))).map (fun s => (s.present, s.rsp, s.now)) =
      some (false, 0x00, 1030) := by decide

/-- V4. -/
theorem test_write_bit_0 : traceOf (exec (.writeBit false) (entry [])) =
    [(0, .irqSuspend), (0, .line .driveLow), (0, .delay .slotInit 10), (10, .delay .hold 50),
      (60, .line .float), (60, .irqResume)] := by decide

/-- V5. -/
theorem test_write_bit_1 : traceOf (exec (.writeBit true) (entry [])) =
    [(0, .irqSuspend), (0, .line .driveLow), (0, .delay .slotInit 10), (10, .line .float),
      (10, .delay .hold 50), (60, .line .float), (60, .irqResume)] := by decide

/-- V6. -/
theorem test_read_bit_high : traceOf (exec (.readBit false) (entry [.high])) =
    [(0, .irqSuspend), (0, .line .driveLow), (0, .delay .readInit 2), (2, .line .float),
      (2, .delay .readSample 10), (12, .sample .high), (12, .irqResume)] := by decide

/-- V6, V9: no inversion, and only bit `bitcnt` of `sh` is written. -/
theorem test_read_bit_value :
    (seen (exec (.readBit true) (entry [.high]))).map (·.2.2.2) = some 0x01 ∧
    (seen (exec (.readBit true) { entry [.low] with sh := 0xFF, bitcnt := 3 })).map (·.2.2.2) =
      some 0xF7 := by decide

/-- V7: response, time, `ie`, `sh`, and the driven-low intervals. -/
theorem test_write_byte : seen (exec (.writeByte 0xA5) (entry [])) =
      some (0x00, 960, true, 0xA5) ∧
    lowIntervals none (traceOf (exec (.writeByte 0xA5) (entry []))) =
      [(0, 10), (120, 180), (240, 250), (360, 420), (480, 540), (600, 610), (720, 780),
        (840, 850)] := by decide +kernel

/-- V7: 62 entries; V10: 17 requests for `0x80`. -/
theorem test_write_byte_counts :
    (traceOf (exec (.writeByte 0xA5) (entry []))).length = 62 ∧
    count isLine (traceOf (exec (.writeByte 0x80) (entry []))) = 17 := by decide +kernel

/-- V8. -/
theorem test_read_byte : seen (exec (.readByte 0x00)
      (entry [.low, .low, .high, .high, .high, .high, .low, .low])) =
    some (0x3C, 576, true, 0x3C) := by decide +kernel

/-- V11: the first sample is bit 0; `sh` starts at 0 whatever it held and whatever the ignored data. -/
theorem test_read_byte_order : seen (exec (.readByte 0xA5)
      { entry [.high, .low, .low, .low, .low, .low, .low, .low] with sh := 0xFF }) =
    some (0x01, 576, true, 0x01) := by decide +kernel

/-- V12. -/
theorem test_configure : traceOf (exec (.configure 0xFF) (entry [])) =
    [(0, .accept 0x3FF), (0, .complete 0x00)] := by decide

/-- V12: `ie` is not written. -/
theorem test_configure_ie : (seen (exec (.configure 0x00) { entry [] with ie := false })).map
    (·.2.2.1) = some false := by decide

/-- V16: no nesting count. -/
theorem test_resume_does_not_count :
    (entry []).suspendIrq.suspendIrq.resumeIrq.ie = true := by decide

/-- V16: the largest delay, and a delay of 0 that is recorded. -/
theorem test_delay_extremes :
    let s := { entry [] with now := 100, cfg := { tv with hold := 65535, recovery := 0 } }
    (s.delay .hold).now = 65635 ∧ (s.delay .recovery).trace = [(100, .delay .recovery 0)] := by decide

/-- V17: a release one microsecond before, at and after the sample instant. -/
theorem test_read_bit_boundary :
    ([11, 12, 13].map fun t0 => (seen (exec (.readBit false)
      { entry [] with env := .timed .low [(t0, .high)] })).map (·.2.2.2)) =
    [some 0x01, some 0x01, some 0x00] := by decide

/-- V3: the timed script of the trade-off. -/
theorem test_presence_pulse :
    ([[(550, Level.low), (700, .high)], [(515, .low), (555, .high)]].map fun changes =>
      (goesOn (exec (.reset 0x00) { entry [] with env := .timed .high changes })).map (·.present)) =
    [some true, some false] := by decide

/-- V21: with `JITTER = 2` a delay of 2 lasts 0 to 4. -/
theorem test_jitter_range : ([0, 1, 2, 3, 4, 5].map (lengthNear 2 2)) = [0, 1, 2, 3, 4, 0] := by decide

/-- A state inside an operation. -/
def during (o : Operation) (pos : BitVec 7) (bitcnt : BitVec 3) : State :=
  { entry [] with busy := true, op := o, pos := pos, bitcnt := bitcnt, present := true, sh := 0 }

/-- V20: a command presented while busy waits. -/
theorem test_command_waits :
    (goesOn (step { during .reset 2 0 with schedule := [.present 0x2A5] })).map
      (fun s => (s.program, s.op, s.busy, s.trace)) = some ([0x2A5], .reset, true, []) := by decide

/-- R33: the step runs the word the host presents. -/
theorem test_step_runs_program :
    (goesOn (step { entry [] with program := [0x3FF, 0x000] })).map (fun s => (s.trace, s.program)) =
      some ([(0, .accept 0x3FF), (0, .complete 0x00)], [0x000]) := by decide

/-! ### Witnesses: for every obligation with hypotheses, a state that meets them -/

theorem witness_EncodeOfDecodeIsIdentity :
    decodeBytes [0xA5, 0x02] = .ok (.writeByte 0xA5) ∧ decodeBytes [0x03] = .ok (.readBit true) := by
  decide

theorem witness_CommandDecodingIsTotal : State.reset.busy = false := by decide

def eightHigh : List Level := List.replicate 8 .high

theorem witness_IgnoredFieldsChangeNothing :
    (entry eightHigh).busy = false ∧ scriptedFor 8 (entry eightHigh).env := ⟨rfl, Nat.le_refl 8⟩

theorem witness_HardwareResetOfIdleEngine :
    let s := { entry [] with schedule := [.hardwareReset] }
    s.busy = false ∧ s.schedule = .hardwareReset :: [] := by decide

theorem witness_NominalDelayLastsItsDuration : (entry []).tolerance = .nominal := by decide

theorem witness_DelayStaysWithinTolerance :
    let s := { entry [] with tolerance := { jitter := 2, stretch := .unbounded }, ie := false }
    s.tolerance.stretch ≠ .none ∧ s.ie = false ∧ (entry []).tolerance.stretch = .none := by decide

/-- The empty timed script, and one with a change at, and one just after, the sample. -/
theorem witness_SampleLineReadsOnce :
    let timed := fun changes => { entry [] with env := .timed .low changes }
    { entry [] with lineMode := .driveLow }.lineMode = .driveLow ∧
    (State.reset.lineMode = .float ∧ State.reset.env = .free) ∧
    ((entry []).lineMode = .float ∧ (entry []).env = .script []) ∧
    ((entry [.low]).lineMode = .float ∧ (entry [.low]).env = .script (.low :: [])) ∧
    ((timed []).lineMode = .float ∧ (timed []).env = .timed .low []) ∧
    ((timed [(0, .high)]).env = .timed .low ([] ++ [(0, .high)]) ∧ 0 ≤ (timed [(0, .high)]).now) ∧
    ((timed [(1, .high)]).env = .timed .low ([] ++ [(1, .high)]) ∧
      ¬ 1 ≤ (timed [(1, .high)]).now) := by decide

theorem witness_SampledLevelIsTheBit :
    let s := { entry [.high] with bitcnt := 7 }
    (7 < 8 ∧ 7 = s.bitcnt.toNat) ∧ (0 < 8 ∧ 0 ≠ s.bitcnt.toNat) := by decide

theorem witness_StepRunsTheFetchedInstruction :
    let s := { entry [] with program := [0x100] }
    let u := { entry [] with slotReq := some 0b01 }
    (s.schedule = [] ∧ s.busy = false ∧ s.slotReq = none ∧ s.program = 0x100 :: [] ∧
      decodeBytes (bytesOfWord (.command 0x100)) = .ok (.readByte 0)) ∧
    (u.schedule = [] ∧ u.busy = false ∧ u.slotReq = some 0b01 ∧
      decodeBytes (bytesOfWord (.slot 0b01)) = .ok (.writeBit true)) := by decide

theorem witness_FetchWordRunsNext :
    decodeTableWord 10 0x2A5 = some (.writeByte 0xA5) ∧
    decodeTableWord 2 0b11 = some (.readBit true) := by decide

theorem witness_AcceptanceOfACommand :
    let s := { entry [] with program := [0x2A5] }
    s.busy = false ∧ s.program = 0x2A5 :: [] := by decide

theorem witness_BusyEngineAcceptsNothing :
    let s := { during .reset 2 0 with schedule := [.present 0x2A5] }
    s.busy = true ∧ (Instr.configure 0).isPublic = true ∧ s.schedule = .present 0x2A5 :: [] := by decide

/-- The write of a 0, before `LINE_IF_BIT`: the micro-step that may perform nothing. -/
def beforeConditional : State :=
  { during .writeByte 3 0 with lineMode := .driveLow, ie := false }

theorem witness_inv_beforeConditional : beforeConditional.Inv := by
  constructor <;>
    simp [beforeConditional, during, entry, State.reset, microsequence, writeSlotSteps, modeAt,
      State.currentBit, bitAt, isByteOperation, inCriticalSection, afterCriticalSection]

theorem witness_OneMicroStepAtATime :
    beforeConditional.Inv ∧ beforeConditional.schedule = [] ∧ beforeConditional.slotReq = none ∧
    beforeConditional.busy = true ∧
    (microsequence beforeConditional.op)[beforeConditional.pos.toNat]? = some (.lineIfBit .float) ∧
    beforeConditional.sh.getLsbD beforeConditional.bitcnt.toNat = false :=
  ⟨witness_inv_beforeConditional, by decide⟩

/-- Each kind of micro-step stands at some position. -/
theorem witness_OneMicroStepAtATime_kinds :
    (microsequence .reset)[0]? = some (.line .driveLow) ∧
    (microsequence .reset)[1]? = some (.delay .resetPulse) ∧
    (microsequence .reset)[4]? = some (.sample .toPresence) ∧
    (microsequence .readByte)[61]? = some (.sample .toBit) ∧
    (microsequence .writeByte)[56]? = some .irqSuspend ∧
    (microsequence .writeByte)[62]? = some .irqResume ∧
    (microsequence .writeByte)[63]? = some (.delay .recovery) := by decide

theorem witness_CompletionAtTheEnd :
    ((during .reset 6 0).busy = true ∧
      (during .reset 6 0).pos.toNat = (microsequence (during .reset 6 0).op).length) ∧
    ((during .readByte 64 7).busy = true ∧
      (during .readByte 64 7).pos.toNat = (microsequence (during .readByte 64 7).op).length) ∧
    ((during .configure 0 0).busy = true ∧
      (during .configure 0 0).pos.toNat = (microsequence (during .configure 0 0).op).length) := by
  decide

theorem witness_OperationIsItsMicrosequence :
    let s := { entry [] with program := [0x2A5] }
    s.busy = false ∧ s.program = 0x2A5 :: [] ∧
    requestedOperation (decodeCommand 0x2A5) = some .writeByte := by decide

theorem witness_StepKeepsTheInvariant :
    State.reset.Inv ∧ ∃ t, step State.reset = .next t :=
  ⟨by constructor <;> simp [State.reset], _, rfl⟩

theorem witness_StepKeepsTheInvariant_busy :
    beforeConditional.Inv ∧ ∃ t, step beforeConditional = .next t :=
  ⟨witness_inv_beforeConditional, _, rfl⟩

theorem witness_TraceOnlyGrows : ∃ t, step { entry [] with program := [0x2A5] } = .next t :=
  ⟨_, rfl⟩

/-- Each clause of the refusals, and steps that are not refused beside them. -/
theorem witness_OnlyTheOutsideIsRefused :
    step { during .reset 2 0 with schedule := [.setDuration .hold 1] } =
      .refused .timingChangedWhileBusy ∧
    step { during .reset 2 0 with schedule := [.hardwareReset] } =
      .refused .hardwareResetWhileBusy ∧
    step { during .reset 2 0 with schedule := [.hostSuspend] } = .refused .secondWriterOfIe ∧
    step { during .reset 2 0 with schedule := [.hostResume] } = .refused .secondWriterOfIe ∧
    step { entry [] with schedule := [.secondWriter .driveLow] } = .refused .secondWriterOfLine ∧
    step { during .reset 2 0 with slotReq := some 0b10 } = .refused .slotRequestedWhileBusy ∧
    step { entry [] with schedule := [.setDuration .hold 1] } = .refused .timingChangedWhileIdle ∧
    (goesOn (step { entry [] with schedule := [.hostSuspend] })).isSome = true :=
  ⟨rfl, rfl, rfl, rfl, rfl, rfl, rfl, rfl⟩

theorem witness_EveryCommandCompletes :
    requestedOperation (.reset 0xFF) = some .reset ∧ State.reset.busy = false := by decide

theorem witness_NominalDurations :
    (entry []).tolerance = .nominal ∧
    ((Instr.writeByte 0xA5).isPublic = true → (entry []).busy = false) ∧
    ((Instr.writeBit true).isPublic = true → (during .reset 2 0).busy = false) := by decide

theorem witness_DurationsWithinTolerance :
    ((Instr.reset 0).isPublic = true → (entry []).busy = false) ∧
    (entry []).tolerance.stretch = .none ∧
    ({ entry [] with tolerance := { jitter := 2, stretch := .unbounded } }.tolerance.stretch ≠ .none ∧
      (Instr.readBit false).isPublic = false) := by decide

theorem witness_CommandsForgetEarlierState :
    (Instr.reset 0).isPublic = true ∧ (Instr.readByte 0).isPublic = true ∧
    (Instr.writeByte 0).isPublic = true ∧ (Instr.configure 0).isPublic = true ∧
    State.reset.busy = false := by decide

theorem witness_FrameOfTheOperations :
    (entry [.low]).busy = false ∧ ∃ t, exec (.reset 0) (entry [.low]) = .next t := ⟨rfl, _, rfl⟩

theorem witness_FrameOfTheOperations_clauses :
    (∀ d, Instr.writeBit true ≠ .reset d) ∧ (Instr.writeBit true).isPublic = false ∧
    ∃ d, Instr.configure 5 = .configure d := ⟨by decide, rfl, 5, rfl⟩

theorem witness_HostAndPlatformMoves :
    (entry []).busy = false ∧
    { entry [] with schedule := [.hostSuspend] }.schedule = .hostSuspend :: [] ∧
    { entry [] with schedule := [.hostResume] }.schedule = .hostResume :: [] ∧
    { during .reset 2 0 with schedule := [.interruption] }.schedule = .interruption :: [] ∧
    { entry [] with schedule := [.setDuration .hold 0] }.schedule =
      .setDuration .hold 0 :: [] ∧
    { during .reset 2 0 with schedule := [.setDuration .hold 0] }.schedule =
      .setDuration .hold 0 :: [] := by decide

theorem witness_ResetOperation :
    (entry [.low]).busy = false ∧ (entry [.low]).tolerance = .nominal ∧
    (entry [.low]).env = .script (.low :: []) := by decide

theorem witness_ResetUnderEveryOracle :
    State.reset.busy = false ∧ State.reset.tolerance = .nominal := by decide

/-- The pulse at the edges of the sample instant, 560: begins at it, ends just after, ends at it. -/
theorem witness_PresencePulseMustCoverTheSample :
    let s := fun a b => { entry [] with env := .timed .high [(a, .low), (b, .high)] }
    ((s 560 561).busy = false ∧ (s 560 561).tolerance = .nominal ∧ 560 ≤ 560 ∧ 560 < 561) ∧
    ((s 500 560).busy = false ∧ (s 500 560).tolerance = .nominal ∧ ¬ 560 < 560) ∧
    (s 560 561).now + time tv .resetPulse + time tv .presenceWait = 560 := by decide

theorem witness_NoDeviceAndStuckLine :
    let high := { entry [] with env := .timed .high [] }
    let low := { entry [] with env := .timed .low [] }
    (high.busy = false ∧ high.env = .timed .high []) ∧
    (low.busy = false ∧ low.env = .timed .low []) := by decide

theorem witness_WriteBitOperation : (entry []).tolerance = .nominal := by decide

theorem witness_ReadBitOperation :
    (entry [.high]).tolerance = .nominal ∧ (entry [.high]).env = .script (.high :: []) := by decide

theorem witness_ReadSlotBoundary :
    let s := fun t0 => { entry [] with env := .timed .low [(t0, .high)] }
    ((s 12).tolerance = .nominal ∧ (s 12).env = .timed .low [(12, .high)] ∧
      12 ≤ (s 12).now + time tv .readInit + time tv .readSample) ∧
    ((s 13).tolerance = .nominal ∧
      ¬ 13 ≤ (s 13).now + time tv .readInit + time tv .readSample) := by decide

theorem witness_ObserverRecoversTheBit :
    (entry []).tolerance = .nominal ∧
    ((entry []).now + time tv .slotInit < 11 ∧
      59 < (entry []).now + time tv .slotInit + time tv .hold) ∧
    ((entry []).now ≤ 0 ∧ 9 < (entry []).now + time tv .slotInit) := by decide

theorem witness_WriteByteOperation :
    (entry []).busy = false ∧ (entry []).tolerance = .nominal := by decide

theorem witness_WriteByteEncodesItsBits :
    (entry []).busy = false ∧ (entry []).tolerance = .nominal := by decide

theorem witness_ReadByteOperation :
    (entry eightHigh).busy = false ∧ (entry eightHigh).tolerance = .nominal ∧
    eightHigh.length = 8 ∧ (entry eightHigh).env = .script (eightHigh ++ []) := by decide

theorem witness_ReadByteUnderEveryOracle :
    State.reset.busy = false ∧ State.reset.tolerance = .nominal := by decide

theorem witness_ReadByteReturnsTheByteSent :
    (entry ((bitsOf 0x3C).map levelOfBit)).busy = false ∧
    (entry ((bitsOf 0x3C).map levelOfBit)).env =
      .script ((bitsOf 0x3C).map levelOfBit ++ []) := by decide

theorem witness_SlotsAreCriticalSections :
    (entry []).busy = false ∧ ∀ d, Instr.writeByte 0 ≠ .reset d := ⟨rfl, by decide⟩

theorem witness_CountsOfEachOperation : State.reset.busy = false := by decide

theorem witness_ConfigureIsANoOp : State.reset.busy = false := by decide

theorem witness_CriticalSectionsStayBounded :
    let s := { entry [] with tolerance := { jitter := 2, stretch := .unbounded } }
    ((Instr.writeByte 0).isPublic = true → s.busy = false) ∧ s.tolerance.stretch = .unbounded ∧
    ((Instr.readBit false).isPublic = true → (during .reset 2 0).busy = false) := by decide

/-- V7, V8: the critical sections last 60 and 12. -/
theorem test_section_lengths :
    sectionLengths none (traceOf (exec (.writeByte 0xA5) (entry []))) = List.replicate 8 60 ∧
    sectionLengths none (traceOf (exec (.readByte 0) (entry eightHigh))) = List.replicate 8 12 := by
  decide +kernel

theorem witness_StaticInputsStayConstant : ∃ t, step { entry [] with program := [0x2A5] } = .next t :=
  ⟨_, rfl⟩

theorem witness_InterruptionEnableChangesOnlyInSlots :
    (during .writeByte 0 0).engineStep.ie ≠ (during .writeByte 0 0).ie ∧
    ({ during .readByte 62 7 with ie := false }.engineStep.ie ≠ false) := by decide

end Sys2Proof.Tests
end

section
/-! What an answered step can be, once for every invariant: an inversion lemma for each of `whenReady`,
`whenIdle`, `engineStep`, `agentMove` and `step`. -/

namespace Sys2Proof.Machine

variable {s t u : State}

/-- A public operation leaves a busy engine as it is and otherwise ends in its last state (R33). -/
theorem State.whenReady_eq_next (h : s.whenReady u = .next t) :
    (s.busy = true ∧ t = s) ∨ (s.busy = false ∧ t = u) := by
  cases h
  cases s.busy <;> simp

/-- A move that has a meaning only while idle is answered only while idle (R199). -/
theorem State.whenIdle_eq_next {r : Refusal} (h : s.whenIdle u r = .next t) :
    s.busy = false ∧ t = u := by
  unfold State.whenIdle at h
  cases hb : s.busy <;> simp_all

/-- The engine's step: a micro-step, the completion, nothing with `pos` beyond the length, the
acceptance of the first word, or nothing while idle without a word (R107). -/
theorem State.engineStep_cases (s : State) :
    (∃ m, s.busy = true ∧ (microsequence s.op)[s.pos.toNat]? = some m ∧
      s.engineStep = (s.perform s.currentBit m).advance 1) ∨
    (s.busy = true ∧ s.pos.toNat = (microsequence s.op).length ∧ s.engineStep = s.complete) ∨
    (s.busy = true ∧ (microsequence s.op).length < s.pos.toNat ∧ s.engineStep = s) ∨
    (∃ c rest, s.busy = false ∧ s.program = c :: rest ∧
      s.engineStep = { s with program := rest }.accept c) ∨
    (s.busy = false ∧ s.program = [] ∧ s.engineStep = s.lowerStrobes) := by
  unfold State.engineStep
  cases hb : s.busy with
  | true =>
    cases hm : (microsequence s.op)[s.pos.toNat]? with
    | some m => simp
    | none =>
      rcases Nat.eq_or_lt_of_le (List.getElem?_eq_none_iff.mp hm) with hp | hp
      · simp [hp]
      · simp [hp, hp.ne']
  | false => cases hp : s.program <;> simp

/-- An answered move of an agent: the engine's step, a word presented, the host's write of `ie` or
the hardware reset while idle, or an interruption (log 25). -/
theorem agentMove_eq_next {m : Move} (h : agentMove m s = .next t) :
    (m = .engine ∧ t = s.engineStep) ∨
    (∃ c, m = .present c ∧ t = { s.lowerStrobes with program := s.program ++ [c] }) ∨
    (m = .hostSuspend ∧ s.busy = false ∧ t = { s.lowerStrobes with ie := false }) ∨
    (m = .hostResume ∧ s.busy = false ∧ t = { s.lowerStrobes with ie := true }) ∨
    (m = .interruption ∧ t = s.lowerStrobes) ∨
    (m = .hardwareReset ∧ s.busy = false ∧ t = s.hardwareReset) := by
  cases m with
  | engine => cases h; simp
  | present c => cases h; simp
  | hostSuspend => simpa using State.whenIdle_eq_next h
  | hostResume => simpa using State.whenIdle_eq_next h
  | interruption => cases h; simp
  | setDuration k n => cases h
  | hardwareReset => simpa using State.whenIdle_eq_next h
  | secondWriter m => cases h

/-- An answered step: the next move of the schedule, or without one a request that runs, the next
step of the operation in progress, or idling (log 6). -/
theorem step_eq_next (h : step s = .next t) :
    (∃ m rest, s.schedule = m :: rest ∧ agentMove m { s with schedule := rest } = .next t) ∨
    (∃ w, s.schedule = [] ∧ s.fetch = .run w ∧ exec (decode w) (s.takeRequest w) = .next t) ∨
    (s.schedule = [] ∧ s.fetch = .proceed ∧ t = s.engineStep) ∨
    (s.schedule = [] ∧ s.fetch = .idle ∧ t = s.lowerStrobes) := by
  unfold step at h
  cases hs : s.schedule with
  | cons m rest => exact .inl ⟨m, rest, rfl, by simpa [hs] using h⟩
  | nil => cases hf : s.fetch <;> simp_all

end Sys2Proof.Machine
end

section
/-! The trace only grows (R17, R31, R66): the relation is reflexive and transitive, every primitive is
in it, and so is all that is made of primitives. -/

namespace Sys2Proof.Machine

variable {s t u : State}

/-- From `s` to `t` time does not go back, and the trace gains entries in order of time between the
two instants (R17, R31). -/
def State.TraceGrowsTo (s t : State) : Prop :=
  s.now ≤ t.now ∧ ∃ seg, t.trace = s.trace ++ seg ∧
    (seg.Pairwise fun a b => a.1 ≤ b.1) ∧ ∀ e ∈ seg, s.now ≤ e.1 ∧ e.1 ≤ t.now

namespace State.TraceGrowsTo

theorem of_trace_eq (hn : s.now ≤ t.now) (ht : t.trace = s.trace) : s.TraceGrowsTo t :=
  ⟨hn, [], by simp [ht]⟩

theorem of_trace_append {e : Event} (hn : s.now ≤ t.now) (ht : t.trace = s.trace ++ [(s.now, e)]) :
    s.TraceGrowsTo t :=
  ⟨hn, [(s.now, e)], by simp [ht, hn]⟩

theorem refl (s : State) : s.TraceGrowsTo s := of_trace_eq le_rfl rfl

/-- What the first part recorded is no later than the instant between the parts, and what the second
part recorded no earlier. -/
theorem trans (hst : s.TraceGrowsTo t) (htu : t.TraceGrowsTo u) : s.TraceGrowsTo u := by
  obtain ⟨hnow₁, seg₁, htrace₁, hord₁, hbd₁⟩ := hst
  obtain ⟨hnow₂, seg₂, htrace₂, hord₂, hbd₂⟩ := htu
  refine ⟨hnow₁.trans hnow₂, seg₁ ++ seg₂, by rw [htrace₂, htrace₁, List.append_assoc], ?_, ?_⟩
  · exact List.pairwise_append.mpr
      ⟨hord₁, hord₂, fun a ha b hb => (hbd₁ a ha).2.trans (hbd₂ b hb).1⟩
  · intro e he
    rcases List.mem_append.mp he with he | he
    · exact ⟨(hbd₁ e he).1, (hbd₁ e he).2.trans hnow₂⟩
    · exact ⟨hnow₁.trans (hbd₂ e he).1, (hbd₂ e he).2⟩

/-! ### The primitives -/

theorem accept (s : State) (c : CommandWord) : s.TraceGrowsTo (s.accept c) :=
  of_trace_append le_rfl (s.accept_trace c)

theorem complete (s : State) : s.TraceGrowsTo s.complete :=
  of_trace_append le_rfl s.complete_trace

theorem advance (s : State) (n : BitVec 7) : s.TraceGrowsTo (s.advance n) :=
  of_trace_eq le_rfl rfl

theorem lowerStrobes (s : State) : s.TraceGrowsTo s.lowerStrobes := of_trace_eq le_rfl rfl

theorem perform (s : State) (bit : Bool) (m : MicroStep) : s.TraceGrowsTo (s.perform bit m) := by
  obtain ⟨hnow, htrace | ⟨e, htrace⟩⟩ := s.perform_trace bit m
  · exact of_trace_eq hnow htrace
  · exact of_trace_append hnow htrace

theorem performAll (bit : Bool) (ms : List MicroStep) :
    ∀ s : State, s.TraceGrowsTo (ms.foldl (fun s m => s.perform bit m) s) := by
  induction ms with
  | nil => exact refl
  | cons m ms ih => exact fun s => (perform s bit m).trans (ih _)

/-! ### The operations: sequences of micro-steps (R108) -/

theorem writeSlot (s : State) (bit : Bool) : s.TraceGrowsTo (s.writeSlot bit) :=
  performAll bit writeSlotSteps s

theorem readSlot (s : State) : s.TraceGrowsTo s.readSlot :=
  performAll false readSlotSteps s

theorem presenceSteps (s : State) : s.TraceGrowsTo s.presenceSteps :=
  performAll false (microsequence .reset) s

theorem byteIteration {slot : State → State} (hslot : ∀ s : State, s.TraceGrowsTo (slot s))
    (s : State) : s.TraceGrowsTo (State.byteIteration slot s) :=
  (hslot s).trans <| (advance _ 7).trans <| (perform _ false (.delay .recovery)).trans (advance _ 1)

theorem byteIterations {slot : State → State} (hslot : ∀ s : State, s.TraceGrowsTo (slot s))
    (n : Nat) : ∀ s : State, s.TraceGrowsTo (State.byteIterations slot n s) := by
  induction n with
  | zero => exact refl
  | succ n ih => exact fun s => (byteIteration hslot s).trans (ih _)

theorem whenReady (hu : s.TraceGrowsTo u) (h : s.whenReady u = .next t) : s.TraceGrowsTo t := by
  obtain ⟨-, rfl⟩ | ⟨-, rfl⟩ := State.whenReady_eq_next h
  · exact refl _
  · exact hu

theorem exec {i : Instr} (h : Machine.exec i s = .next t) : s.TraceGrowsTo t := by
  cases i with
  | reset data =>
    exact whenReady ((accept _ _).trans <| (presenceSteps _).trans <| (advance _ 6).trans <|
      complete _) h
  | readByte data =>
    exact whenReady ((accept _ _).trans <| (byteIterations readSlot 8 _).trans <| complete _) h
  | writeByte value =>
    exact whenReady ((accept _ _).trans <|
      (byteIterations (fun s => writeSlot s _) 8 _).trans <| complete _) h
  | configure data => exact whenReady ((accept _ _).trans (complete _)) h
  | writeBit bit => cases h; exact writeSlot s bit
  | readBit ignored => cases h; exact readSlot s

/-! ### The engine's step, the agents' moves and the whole step -/

theorem engineStep (s : State) : s.TraceGrowsTo s.engineStep := by
  obtain ⟨m, -, -, h⟩ | ⟨-, -, h⟩ | ⟨-, -, h⟩ | ⟨c, rest, -, -, h⟩ | ⟨-, -, h⟩ :=
    s.engineStep_cases <;> rw [h]
  · exact (perform s _ m).trans (advance _ 1)
  · exact complete s
  · exact refl s
  · exact accept { s with program := rest } c
  · exact lowerStrobes s

/-- Only the engine writes the trace; the other agents' moves keep it and take no time (log 25). -/
theorem agentMove {m : Move} (h : Machine.agentMove m s = .next t) : s.TraceGrowsTo t := by
  obtain ⟨-, rfl⟩ | ⟨c, -, rfl⟩ | ⟨-, -, rfl⟩ | ⟨-, -, rfl⟩ | ⟨-, rfl⟩ | ⟨-, -, rfl⟩ :=
    agentMove_eq_next h
  · exact engineStep s
  all_goals exact of_trace_eq le_rfl rfl

theorem takeRequest (s : State) (w : PortWord) : s.TraceGrowsTo (s.takeRequest w) := by
  cases w <;> exact of_trace_eq le_rfl rfl

theorem step (h : Machine.step s = .next t) : s.TraceGrowsTo t := by
  obtain ⟨m, rest, -, hm⟩ | ⟨w, -, -, hw⟩ | ⟨-, -, rfl⟩ | ⟨-, -, rfl⟩ := step_eq_next h
  · exact (of_trace_eq (t := { s with schedule := rest }) le_rfl rfl).trans (agentMove hm)
  · exact (takeRequest s w).trans (exec hw)
  · exact engineStep s
  · exact lowerStrobes s

end State.TraceGrowsTo

/-- Settles O24: every primitive only appends to the trace, and a step is made of primitives. -/
theorem traceOnlyGrows : Obligations.TraceOnlyGrows := by
  unfold Obligations.TraceOnlyGrows
  exact fun _ _ h => State.TraceGrowsTo.step h

end Sys2Proof.Machine
end

section
/-! What one micro-step does to the driver, `ie`, `sh`, `present` and the strobes, and what the step
after it can see (spec 40_sequencer_primitives.md R107, 10_state.md R22, R26). -/

namespace Sys2Proof.Machine

variable (s : State) (bit : Bool) (m : MicroStep)

@[simp] theorem State.perform_busy : (s.perform bit m).busy = s.busy := by
  simp [s.perform_frame bit m]
@[simp] theorem State.perform_op : (s.perform bit m).op = s.op := by
  simp [s.perform_frame bit m]
@[simp] theorem State.perform_pos : (s.perform bit m).pos = s.pos := by
  simp [s.perform_frame bit m]
@[simp] theorem State.perform_bitcnt : (s.perform bit m).bitcnt = s.bitcnt := by
  simp [s.perform_frame bit m]
@[simp] theorem State.perform_rsp : (s.perform bit m).rsp = s.rsp := by
  simp [s.perform_frame bit m]
@[simp] theorem State.perform_cfg : (s.perform bit m).cfg = s.cfg := by
  simp [s.perform_frame bit m]
@[simp] theorem State.perform_tolerance : (s.perform bit m).tolerance = s.tolerance := by
  simp [s.perform_frame bit m]
@[simp] theorem State.perform_program : (s.perform bit m).program = s.program := by
  simp [s.perform_frame bit m]
@[simp] theorem State.perform_schedule : (s.perform bit m).schedule = s.schedule := by
  simp [s.perform_frame bit m]
@[simp] theorem State.perform_slotReq : (s.perform bit m).slotReq = s.slotReq := by
  simp [s.perform_frame bit m]

/-- The mode of the driver after a micro-step that sends `bit` (R101, R107). -/
def MicroStep.modeAfter (bit : Bool) (old : Mode) : MicroStep → Mode
  | .line m => m
  | .lineIfBit m => if bit then m else old
  | .delay _ => old
  | .sample _ => old
  | .irqSuspend => old
  | .irqResume => old

@[simp] theorem State.perform_lineMode :
    (s.perform bit m).lineMode = m.modeAfter bit s.lineMode := by
  cases m with
  | lineIfBit m => cases bit <;> rfl
  | sample d => cases d <;> simp [State.perform, MicroStep.modeAfter]
  | line m => rfl
  | delay k => rfl
  | irqSuspend => rfl
  | irqResume => rfl

@[simp] theorem State.perform_ie :
    (s.perform bit m).ie =
      if m = .irqSuspend then false else if m = .irqResume then true else s.ie := by
  cases m with
  | lineIfBit m => cases bit <;> simp [State.perform]
  | sample d => cases d <;> simp [State.perform]
  | line m => simp [State.perform]
  | delay k => simp [State.perform]
  | irqSuspend => simp [State.perform]
  | irqResume => simp [State.perform]

/-- Only a sample that goes to the bit writes `sh` (R25, R107). -/
theorem State.perform_sh {m : MicroStep} (hm : m ≠ .sample .toBit) :
    (s.perform bit m).sh = s.sh := by
  cases m with
  | lineIfBit m => cases bit <;> rfl
  | sample d =>
    cases d with
    | toPresence => exact s.samplePresence_sh
    | toBit => exact absurd rfl hm
  | line m => rfl
  | delay k => rfl
  | irqSuspend => rfl
  | irqResume => rfl

/-- A micro-step raises no `rsp_valid`, and each strobe of the interruption enable agrees with `ie`
after it if it did before (R32; log 16). -/
theorem State.perform_strobes
    (hsuspend : s.irqSuspend = true → s.ie = false) (hresume : s.irqResume = true → s.ie = true) :
    ((s.perform bit m).rspValid = true → s.rspValid = true) ∧
    ((s.perform bit m).irqSuspend = true → (s.perform bit m).ie = false) ∧
    ((s.perform bit m).irqResume = true → (s.perform bit m).ie = true) := by
  cases m with
  | lineIfBit m =>
    cases bit with
    | false => exact ⟨id, hsuspend, hresume⟩
    | true => simp [State.perform]
  | sample d => cases d <;> simp [State.perform]
  | line m => simp [State.perform]
  | delay k => simp [State.perform]
  | irqSuspend => simp [State.perform]
  | irqResume => simp [State.perform]

/-- `ACCEPT` is recorded by no micro-step. -/
theorem State.perform_count_isAccept :
    count isAccept (s.perform bit m).trace = count isAccept s.trace := by
  cases m with
  | lineIfBit m => cases bit <;> simp [State.perform, isAccept]
  | sample d => cases d <;> simp [State.perform, isAccept]
  | line m => simp [State.perform, isAccept]
  | delay k => simp [State.perform, isAccept]
  | irqSuspend => simp [State.perform, isAccept]
  | irqResume => simp [State.perform, isAccept]

/-! ### The microsequences entry by entry -/

/-- In a byte operation a slot's suspension stands at its first position and its resumption at the
seventh (R108). -/
theorem microsequence_irq_positions {o : Operation} (ho : isByteOperation o = true) :
    ∀ p < 64, ∀ m ∈ (microsequence o)[p]?,
      (m = .irqSuspend ↔ p % 8 = 0) ∧ (m = .irqResume ↔ p % 8 = 6) := by
  cases o with
  | readByte => decide
  | writeByte => decide
  | reset => cases ho
  | configure => cases ho

/-- WRITE_BYTE takes no sample (R109). -/
theorem microsequence_writeByte_no_sample :
    ∀ p < 64, ∀ m ∈ (microsequence .writeByte)[p]?, m ≠ .sample .toBit := by decide

/-- The mode before each position is what the micro-step before it leaves. The bit sent may change
where a slot begins, and there the mode does not depend on it (R108). -/
theorem modeAt_succ (o : Operation) : ∀ p < 64, ∀ m ∈ (microsequence o)[p]?, ∀ bit bit' : Bool,
    (o = .writeByte → (p + 1) % 8 ≠ 0 → bit' = bit) →
      modeAt o bit' (p + 1) = m.modeAfter bit (modeAt o bit p) := by
  cases o <;> decide

@[simp] theorem modeAt_zero (o : Operation) (bit : Bool) : modeAt o bit 0 = .float := by
  cases o <;> simp [modeAt]

/-- At the end of a microsequence the line is released (R35). -/
theorem modeAt_length (o : Operation) (bit : Bool) :
    modeAt o bit (microsequence o).length = .float := by
  cases o <;> cases bit <;> decide

/-! ### The position -/

theorem State.pos_add_one_toNat {s : State} (h : s.pos.toNat < 64) :
    (s.pos + 1).toNat = s.pos.toNat + 1 := by
  have h1 : s.pos.toNat + (1 : BitVec 7).toNat < 2 ^ 7 := by simp; omega
  exact BitVec.toNat_add_of_lt h1

/-- `bitcnt` follows the position of a byte operation, and stays 7 at the end (R26, R107). -/
theorem State.advance_bitcnt_follows {s : State} (ho : isByteOperation s.op = true)
    (hp : s.pos.toNat < 64) (hb : s.bitcnt.toNat = min 7 (s.pos.toNat / 8)) :
    (s.advance 1).bitcnt.toNat = min 7 ((s.pos.toNat + 1) / 8) := by
  rw [State.advance_bitcnt, State.pos_add_one_toNat hp]
  by_cases hlast : s.pos.toNat + 1 < 64
  · simp [ho, hlast]
    omega
  · simp [hlast]
    omega

end Sys2Proof.Machine
end

section
/-! The public operations as acceptance, body and completion, and what each body leaves: all that is
made of micro-steps keeps what every micro-step keeps (spec 10_state.md R33, R34; R108). -/

namespace Sys2Proof.Machine

variable {α : Type} {s t : State}

/-! ### What micro-steps and the position's advance keep -/

theorem State.foldl_perform_keeps (f : State → α)
    (hperform : ∀ s bit m, f (State.perform s bit m) = f s) (bit : Bool) (ms : List MicroStep) :
    ∀ s, f (ms.foldl (fun s m => s.perform bit m) s) = f s := by
  induction ms with
  | nil => exact fun _ => rfl
  | cons m ms ih => exact fun s => (ih _).trans (hperform s bit m)

/-- The steps of an operation between its acceptance and its completion. -/
def State.operationBody (o : Operation) (s : State) : State :=
  match o with
  | .reset => s.presenceSteps.advance 6
  | .readByte => State.byteIterations State.readSlot 8 s
  | .writeByte => State.byteIterations State.writeCurrentBit 8 s
  | .configure => s

/-- An operation asked for while idle is acceptance, body and completion. The data of the word is what
WRITE_BYTE sends (R33, R34). -/
theorem exec_of_requestedOperation {i : Instr} {o : Operation} (ho : requestedOperation i = some o) :
    ∃ data, (o = .writeByte → i = .writeByte data) ∧ ∀ s : State, s.busy = false →
      exec i s = .next (((s.accept (commandWord o data)).operationBody o).complete) := by
  cases i with
  | reset data =>
    cases ho
    exact ⟨data, nofun, fun s hb => by
      simp [exec, execReset, State.whenReady, hb, State.operationBody]⟩
  | readByte data =>
    cases ho
    exact ⟨data, nofun, fun s hb => by
      simp [exec, execReadByte, State.whenReady, hb, State.operationBody]⟩
  | writeByte value =>
    cases ho
    exact ⟨value, fun _ => rfl, fun s hb => by
      simp [exec, execWriteByte, State.whenReady, hb, State.operationBody]⟩
  | configure data =>
    cases ho
    exact ⟨data, nofun, fun s hb => by
      simp [exec, execConfigure, State.whenReady, hb, State.operationBody]⟩
  | writeBit bit => cases ho
  | readBit ignored => cases ho

section Keeps

variable (f : State → α) (hperform : ∀ s bit m, f (State.perform s bit m) = f s)
  (hadvance : ∀ s n, f (State.advance s n) = f s)
include hperform hadvance

theorem State.byteIteration_keeps {slot : State → State} (hslot : ∀ s, f (slot s) = f s)
    (s : State) : f (State.byteIteration slot s) = f s := by
  calc f (State.byteIteration slot s)
      = f (((slot s).advance 7).perform false (.delay .recovery)) := hadvance _ 1
    _ = f ((slot s).advance 7) := hperform _ _ _
    _ = f (slot s) := hadvance _ 7
    _ = f s := hslot s

/-- The slots and the steps of RESET are their microsequences by definition (R108), so a body is made
of micro-steps and advances of the position. -/
theorem State.operationBody_keeps (o : Operation) (s : State) : f (s.operationBody o) = f s := by
  have hmicro := State.foldl_perform_keeps f hperform
  cases o with
  | reset => exact (hadvance _ 6).trans (hmicro false (microsequence .reset) s)
  | readByte =>
    exact State.byteIterations_keeps _ f
      (State.byteIteration_keeps f hperform hadvance (hmicro false readSlotSteps)) 8 s
  | writeByte =>
    exact State.byteIterations_keeps _ f
      (State.byteIteration_keeps f hperform hadvance fun s => hmicro _ writeSlotSteps s) 8 s
  | configure => rfl

end Keeps

/-! ### What each body keeps -/

section Fields

variable (o : Operation) (s : State)

@[simp] theorem State.operationBody_busy : (s.operationBody o).busy = s.busy :=
  State.operationBody_keeps (·.busy) (by simp) (by simp) o s
@[simp] theorem State.operationBody_op : (s.operationBody o).op = s.op :=
  State.operationBody_keeps (·.op) (by simp) (by simp) o s
@[simp] theorem State.operationBody_cfg : (s.operationBody o).cfg = s.cfg :=
  State.operationBody_keeps (·.cfg) (by simp) (by simp) o s
@[simp] theorem State.operationBody_tolerance : (s.operationBody o).tolerance = s.tolerance :=
  State.operationBody_keeps (·.tolerance) (by simp) (by simp) o s
@[simp] theorem State.operationBody_program : (s.operationBody o).program = s.program :=
  State.operationBody_keeps (·.program) (by simp) (by simp) o s
@[simp] theorem State.operationBody_schedule : (s.operationBody o).schedule = s.schedule :=
  State.operationBody_keeps (·.schedule) (by simp) (by simp) o s
@[simp] theorem State.operationBody_slotReq : (s.operationBody o).slotReq = s.slotReq :=
  State.operationBody_keeps (·.slotReq) (by simp) (by simp) o s

/-- Between acceptance and completion no command is accepted (R33). -/
@[simp] theorem State.operationBody_count_isAccept :
    count isAccept (s.operationBody o).trace = count isAccept s.trace :=
  State.operationBody_keeps (fun s => count isAccept s.trace) State.perform_count_isAccept
    (by simp) o s

theorem State.TraceGrowsTo.operationBody : s.TraceGrowsTo (s.operationBody o) := by
  cases o with
  | reset => exact (presenceSteps s).trans (advance _ 6)
  | readByte => exact byteIterations readSlot 8 s
  | writeByte => exact byteIterations (fun s => writeSlot s _) 8 s
  | configure => exact refl s

/-! ### What each body leaves in the driver, `ie`, `sh`, `present`, `dly` and `pos` -/

/-- Every operation but CONFIGURE releases the line at its end (R35, R170). -/
@[simp] theorem State.operationBody_lineMode :
    (s.operationBody o).lineMode = if o = .configure then s.lineMode else .float := by
  cases o with
  | reset => simp [State.operationBody, State.presenceSteps]
  | readByte => exact State.byteIterations_ends _ (·.lineMode = .float) (by simp) (by decide) s
  | writeByte => exact State.byteIterations_ends _ (·.lineMode = .float) (by simp) (by decide) s
  | configure => rfl

/-- The slots of a byte operation leave interruptions enabled; the others leave `ie` alone (R122,
R222). -/
@[simp] theorem State.operationBody_ie :
    (s.operationBody o).ie = if isByteOperation o then true else s.ie := by
  cases o with
  | reset => simp [State.operationBody, State.presenceSteps, isByteOperation]
  | readByte => exact State.byteIterations_ends _ (·.ie = true) (by simp) (by decide) s
  | writeByte => exact State.byteIterations_ends _ (·.ie = true) (by simp) (by decide) s
  | configure => rfl

@[simp] theorem State.operationBody_dly :
    (s.operationBody o).dly = if o = .configure then s.dly else 0 := by
  cases o with
  | reset => simp [State.operationBody, State.presenceSteps]
  | readByte => exact State.byteIterations_ends _ (·.dly = 0) (by simp) (by decide) s
  | writeByte => exact State.byteIterations_ends _ (·.dly = 0) (by simp) (by decide) s
  | configure => rfl

/-- Only RESET writes `present` (R28). -/
theorem State.operationBody_present {o : Operation} (ho : o ≠ .reset) :
    (s.operationBody o).present = s.present := by
  cases o with
  | reset => exact absurd rfl ho
  | readByte => exact State.byteIterations_keeps _ (·.present) (by simp) 8 s
  | writeByte => exact State.byteIterations_keeps _ (·.present) (by simp) 8 s
  | configure => rfl

/-- Only READ_BYTE writes `sh` after its acceptance (R25). -/
theorem State.operationBody_sh {o : Operation} (ho : o ≠ .readByte) :
    (s.operationBody o).sh = s.sh := by
  cases o with
  | reset => simp [State.operationBody, State.presenceSteps]
  | readByte => exact absurd rfl ho
  | writeByte => exact State.byteIterations_keeps _ (·.sh) (by simp) 8 s
  | configure => rfl

/-- The body of an operation that has been accepted ends at the length of its microsequence (R27). -/
theorem State.operationBody_accept_pos (c : CommandWord) (ho : operationOf (commandOp c) = o) :
    ((s.accept c).operationBody o).pos.toNat = (microsequence o).length := by
  have hbytes {slot : State → State} (hop : ∀ s, (slot s).op = s.op)
      (hpos : ∀ s, (slot s).pos = s.pos) (hbyte : isByteOperation o = true) :
      (State.byteIterations slot 8 (s.accept c)).pos = 64 := by
    obtain ⟨hend, -, -⟩ :=
      State.byteIterations_position slot hop hpos 8 (s.accept c) 0 rfl (by simp [ho, hbyte]) rfl rfl
    exact hend
  cases o with
  | reset => simp [State.operationBody, State.presenceSteps, microsequence]
  | readByte =>
    simp only [State.operationBody, hbytes State.readSlot_op State.readSlot_pos rfl]
    decide
  | writeByte =>
    simp only [State.operationBody, hbytes State.writeCurrentBit_op State.writeCurrentBit_pos rfl]
    decide
  | configure => rfl

end Fields

/-! ### The step of an idle engine -/

/-- What an idle engine is asked for: a slot, or an operation that it accepts, performs and
completes. -/
theorem exec_idle_eq_next {i : Instr} (hb : s.busy = false) (h : exec i s = .next t) :
    (∃ bit, i = .writeBit bit ∧ t = s.writeSlot bit) ∨
    (∃ ignored, i = .readBit ignored ∧ t = s.readSlot) ∨
    (∃ o data, requestedOperation i = some o ∧ (o = .writeByte → i = .writeByte data) ∧
      t = ((s.accept (commandWord o data)).operationBody o).complete) := by
  cases ho : requestedOperation i with
  | some o =>
    obtain ⟨data, hdata, hexec⟩ := exec_of_requestedOperation ho
    cases (hexec s hb).symm.trans h
    exact .inr (.inr ⟨o, data, rfl, hdata, rfl⟩)
  | none =>
    cases i with
    | writeBit bit => cases h; exact .inl ⟨bit, rfl, rfl⟩
    | readBit ignored => cases h; exact .inr (.inl ⟨ignored, rfl, rfl⟩)
    | reset data => cases ho
    | readByte data => cases ho
    | writeByte value => cases ho
    | configure data => cases ho

@[simp] theorem State.takeRequest_busy (w : PortWord) : (s.takeRequest w).busy = s.busy := by
  cases w <;> rfl

/-- A request is fetched by an idle engine only (R33, U8). -/
theorem State.busy_eq_false_of_fetch_run {w : PortWord} (h : s.fetch = .run w) : s.busy = false := by
  unfold State.fetch at h
  cases hb : s.busy with
  | false => rfl
  | true => cases hr : s.slotReq <;> simp [hb, hr] at h

end Sys2Proof.Machine
end

section
/-! The machine's invariant: the reset state meets it, and every step keeps it (spec 10_state.md R22,
R26, R27, R35; 60_exceptions.md R184). A step that ends idle needs only the released line and its
strobes (`of_idle`); the micro-step of a busy engine is the one case with an argument of its own. -/

namespace Sys2Proof.Machine

namespace State.Inv

variable {s t : State}

/-! ### Time and trace -/

theorem traceOrdered_of_growsTo (h : s.Inv) (hg : s.TraceGrowsTo t) :
    t.trace.Pairwise fun a b => a.1 ≤ b.1 := by
  obtain ⟨-, seg, htrace, hord, hbound⟩ := hg
  rw [htrace]
  exact List.pairwise_append.mpr
    ⟨h.traceOrdered, hord, fun a ha b hb => (h.tracePast a ha).trans (hbound b hb).1⟩

theorem tracePast_of_growsTo (h : s.Inv) (hg : s.TraceGrowsTo t) : ∀ e ∈ t.trace, e.1 ≤ t.now := by
  obtain ⟨hnow, seg, htrace, -, hbound⟩ := hg
  intro e he
  rw [htrace] at he
  rcases List.mem_append.mp he with he | he
  · exact (h.tracePast e he).trans hnow
  · exact (hbound e he).2

/-! ### Steps that end idle, and what the invariant does not look at -/

/-- An idle state reached with the line released and strobes that agree with `ie`. -/
theorem of_idle (h : s.Inv) (hg : s.TraceGrowsTo t) (hbusy : t.busy = false)
    (hline : t.lineMode = .float) (hsuspend : t.irqSuspend = true → t.ie = false)
    (hresume : t.irqResume = true → t.ie = true) : t.Inv where
  idleReleased _ := hline
  posInRange hb := by simp [hbusy] at hb
  lineFollows hb := by simp [hbusy] at hb
  bitFollows hb := by simp [hbusy] at hb
  suspendedInside hb := by simp [hbusy] at hb
  enabledAfter hb := by simp [hbusy] at hb
  rspValidIdle _ := hbusy
  suspendStrobe := hsuspend
  resumeStrobe := hresume
  traceOrdered := h.traceOrdered_of_growsTo hg
  tracePast := h.tracePast_of_growsTo hg

/-- The requests of the host and the moves still to come are no part of it. -/
theorem withRequests (h : s.Inv) (program : List CommandWord) (slotReq : Option SlotWord)
    (schedule : List Move) :
    State.Inv { s with program := program, slotReq := slotReq, schedule := schedule } where
  idleReleased := h.idleReleased
  posInRange := h.posInRange
  lineFollows := h.lineFollows
  bitFollows := h.bitFollows
  suspendedInside := h.suspendedInside
  enabledAfter := h.enabledAfter
  rspValidIdle := h.rspValidIdle
  suspendStrobe := h.suspendStrobe
  resumeStrobe := h.resumeStrobe
  traceOrdered := h.traceOrdered
  tracePast := h.tracePast

theorem takeRequest (h : s.Inv) (w : PortWord) : (s.takeRequest w).Inv := by
  cases w with
  | slot r => exact h.withRequests s.program none s.schedule
  | command c => exact h.withRequests (s.program.drop 1) s.slotReq s.schedule

theorem lowerStrobes (h : s.Inv) : s.lowerStrobes.Inv where
  idleReleased := h.idleReleased
  posInRange := h.posInRange
  lineFollows := h.lineFollows
  bitFollows := h.bitFollows
  suspendedInside := h.suspendedInside
  enabledAfter := h.enabledAfter
  rspValidIdle := nofun
  suspendStrobe := nofun
  resumeStrobe := nofun
  traceOrdered := h.traceOrdered
  tracePast := h.tracePast

/-! ### The engine's step -/

theorem accept (h : s.Inv) (hb : s.busy = false) (c : CommandWord) : (s.accept c).Inv where
  idleReleased := nofun
  posInRange _ := by simp
  lineFollows _ := by simp [h.idleReleased hb]
  bitFollows _ _ := by simp
  suspendedInside _ _ hin := by simp [inCriticalSection] at hin
  enabledAfter _ _ hafter := by simp [afterCriticalSection] at hafter
  rspValidIdle := nofun
  suspendStrobe := nofun
  resumeStrobe := nofun
  traceOrdered := h.traceOrdered_of_growsTo (.accept s c)
  tracePast := h.tracePast_of_growsTo (.accept s c)

theorem complete (h : s.Inv) (hb : s.busy = true)
    (hend : s.pos.toNat = (microsequence s.op).length) : s.complete.Inv :=
  h.of_idle (.complete s) rfl
    (by rw [State.complete_lineMode, h.lineFollows hb, hend, modeAt_length]) nofun nofun

/-! The micro-step `m` at the position of a busy engine, and the position after it. -/

section MicroStep

variable {m : MicroStep} (h : s.Inv) (hb : s.busy = true)
  (hm : m ∈ (microsequence s.op)[s.pos.toNat]?)

include hm in
theorem pos_lt : s.pos.toNat < 64 := by
  obtain ⟨hlt, -⟩ := List.getElem?_eq_some_iff.mp hm
  exact hlt.trans_le (microsequence_length_le s.op)

include hm in
/-- In a byte operation `ie` falls at the first position of a slot and rises at the seventh. -/
theorem ie_step (hbyte : isByteOperation s.op = true) (bit : Bool) :
    ((s.perform bit m).advance 1).ie =
      if s.pos.toNat % 8 = 0 then false else if s.pos.toNat % 8 = 6 then true else s.ie := by
  obtain ⟨hsuspend, hresume⟩ := microsequence_irq_positions hbyte _ (pos_lt hm) m hm
  simp only [State.advance_ie, State.perform_ie, hsuspend, hresume]

include h hb hm

theorem bitcnt_step (hbyte : isByteOperation s.op = true) (bit : Bool) :
    ((s.perform bit m).advance 1).bitcnt.toNat = min 7 ((s.pos.toNat + 1) / 8) := by
  have hp := pos_lt hm
  have hbit := h.bitFollows hb hbyte
  rw [State.advance_bitcnt_follows (by simpa) (by simpa) (by simpa), State.perform_pos]

/-- Within a slot of WRITE_BYTE the bit being sent does not change: its index does not, and nothing
is sampled into `sh`. -/
theorem currentBit_step (ho : s.op = .writeByte) (hin : (s.pos.toNat + 1) % 8 ≠ 0) :
    ((s.perform s.currentBit m).advance 1).currentBit = s.currentBit := by
  have hbyte : isByteOperation s.op = true := by rw [ho]; rfl
  have hbit := h.bitFollows hb hbyte
  have hsame : ((s.perform s.currentBit m).advance 1).bitcnt.toNat = s.bitcnt.toNat := by
    rw [h.bitcnt_step hb hm hbyte, hbit]
    omega
  have hsh : (s.perform s.currentBit m).sh = s.sh :=
    State.perform_sh _ _ (microsequence_writeByte_no_sample _ (pos_lt hm) m (ho ▸ hm))
  rw [State.currentBit, hsame, State.advance_sh, hsh, State.currentBit]

theorem microStep : ((s.perform s.currentBit m).advance 1).Inv := by
  obtain ⟨hlt, -⟩ := List.getElem?_eq_some_iff.mp hm
  have hpos : ((s.perform s.currentBit m).advance 1).pos.toNat = s.pos.toNat + 1 := by
    rw [State.advance_pos, State.perform_pos, State.pos_add_one_toNat (pos_lt hm)]
  have hop : ((s.perform s.currentBit m).advance 1).op = s.op := State.perform_op s s.currentBit m
  have hnovalid : s.rspValid ≠ true := fun hv => by simp [h.rspValidIdle hv] at hb
  obtain ⟨hvalid, hsuspend, hresume⟩ :=
    State.perform_strobes s s.currentBit m h.suspendStrobe h.resumeStrobe
  have hg := (State.TraceGrowsTo.perform s s.currentBit m).trans (.advance _ 1)
  refine ⟨by simp [hb], fun _ => ?inRange, fun _ => ?line, fun _ hbyte => ?index,
    fun _ hbyte hin => ?inside, fun _ hbyte hafter => ?after, fun hv => absurd (hvalid hv) hnovalid,
    hsuspend, hresume, h.traceOrdered_of_growsTo hg, h.tracePast_of_growsTo hg⟩
  case inRange => rw [hpos, hop]; exact hlt
  case line =>
    rw [State.advance_lineMode, State.perform_lineMode, h.lineFollows hb, hpos, hop]
    exact (modeAt_succ s.op _ (pos_lt hm) m hm _ _ (h.currentBit_step hb hm)).symm
  case index => rw [hpos, h.bitcnt_step hb hm (hop ▸ hbyte)]
  case inside =>
    rw [hpos, inCriticalSection] at hin
    have hbefore := h.suspendedInside hb (hop ▸ hbyte)
    rw [ie_step hm (hop ▸ hbyte)]
    split
    · rfl
    · rw [if_neg (by omega), hbefore (by unfold inCriticalSection; omega)]
  case after =>
    rw [hpos, afterCriticalSection] at hafter
    have hbefore := h.enabledAfter hb (hop ▸ hbyte)
    rw [ie_step hm (hop ▸ hbyte), if_neg (by omega)]
    split
    · rfl
    · exact hbefore (by unfold afterCriticalSection; omega)

end MicroStep

theorem engineStep (h : s.Inv) : s.engineStep.Inv := by
  obtain ⟨m, hb, hm, heq⟩ | ⟨hb, hend, heq⟩ | ⟨-, -, heq⟩ | ⟨c, rest, hb, -, heq⟩ | ⟨-, -, heq⟩ :=
    s.engineStep_cases <;> rw [heq]
  · exact h.microStep hb hm
  · exact h.complete hb hend
  · exact h
  · exact (h.withRequests rest s.slotReq s.schedule).accept hb c
  · exact h.lowerStrobes

/-! ### The agents' moves and the whole step -/

theorem agentMove {m : Move} (h : s.Inv) (hm : Machine.agentMove m s = .next t) : t.Inv := by
  have hg := State.TraceGrowsTo.agentMove hm
  obtain ⟨-, rfl⟩ | ⟨c, -, rfl⟩ | ⟨-, hb, rfl⟩ | ⟨-, hb, rfl⟩ | ⟨-, rfl⟩ | ⟨-, hb, rfl⟩ :=
    agentMove_eq_next hm
  · exact h.engineStep
  · exact h.lowerStrobes.withRequests (s.program ++ [c]) s.slotReq s.schedule
  · exact h.of_idle hg hb (h.idleReleased hb) nofun nofun
  · exact h.of_idle hg hb (h.idleReleased hb) nofun nofun
  · exact h.lowerStrobes
  · exact h.of_idle hg rfl rfl nofun nofun

/-- What an idle engine runs to its end leaves it idle with the line released. -/
theorem exec {i : Instr} (h : s.Inv) (hb : s.busy = false) (ht : Machine.exec i s = .next t) :
    t.Inv := by
  have hg := State.TraceGrowsTo.exec ht
  obtain ⟨bit, -, rfl⟩ | ⟨-, -, rfl⟩ | ⟨o, data, -, -, rfl⟩ := exec_idle_eq_next hb ht
  · exact h.of_idle hg (by simpa) (by simp) (by simp) (by simp)
  · exact h.of_idle hg (by simpa) (by simp) (by simp) (by simp)
  · exact h.of_idle hg rfl (by simp [h.idleReleased hb]) nofun nofun

theorem step (h : s.Inv) (ht : Machine.step s = .next t) : t.Inv := by
  obtain ⟨m, rest, -, hm⟩ | ⟨w, -, hf, hw⟩ | ⟨-, -, rfl⟩ | ⟨-, -, rfl⟩ := step_eq_next ht
  · exact (h.withRequests s.program s.slotReq rest).agentMove hm
  · have hidle : (s.takeRequest w).busy = false := by
      rw [State.takeRequest_busy, State.busy_eq_false_of_fetch_run hf]
    exact (h.takeRequest w).exec hidle hw
  · exact h.engineStep
  · exact h.lowerStrobes

end State.Inv

/-- Settles O22: nothing is in progress, the line is released and the trace is empty. -/
theorem resetMeetsTheInvariant : Obligations.ResetMeetsTheInvariant := by
  unfold Obligations.ResetMeetsTheInvariant
  constructor <;> simp [State.reset]

/-- Settles O23: by the cases of an answered step, each with its lemma of `State.Inv`. -/
theorem stepKeepsTheInvariant : Obligations.StepKeepsTheInvariant := by
  unfold Obligations.StepKeepsTheInvariant
  exact fun _ _ h => h.step

end Sys2Proof.Machine
end

section
/-! Which instruction the next step runs (spec 30_encoding.md; log 7, log 8, log 10), and the agents'
moves (10_state.md R20, 60_exceptions.md R197). -/

namespace Sys2Proof.Machine

variable {s : State}

/-! ### The step by what is pending -/

theorem step_of_schedule_cons {m : Move} {rest : List Move} (h : s.schedule = m :: rest) :
    step s = agentMove m { s with schedule := rest } := by
  simp [step, h]

theorem step_of_fetch_run {w : PortWord} (hs : s.schedule = []) (hf : s.fetch = .run w) :
    step s = exec (decode w) (s.takeRequest w) := by
  simp [step, hs, hf]

theorem State.fetch_slot {r : SlotWord} (hb : s.busy = false) (hr : s.slotReq = some r) :
    s.fetch = .run (.slot r) := by
  simp [State.fetch, hb, hr]

theorem State.fetch_command {c : CommandWord} {rest : List CommandWord} (hb : s.busy = false)
    (hr : s.slotReq = none) (hp : s.program = c :: rest) : s.fetch = .run (.command c) := by
  simp [State.fetch, hb, hr, hp]

/-! ### The words of the opcode table's numbering (log 12) -/

theorem decode_slot_of_decodeTableWord {nbits w : Nat} {i : Instr} (hn : nbits ≤ 8)
    (h : decodeTableWord nbits w = some i) : decode (.slot (BitVec.ofNat 2 w)) = i := by
  by_cases hw : w < 4
  · have hbyte : w % 256 = w := by omega
    simpa [decodeTableWord, tableBytes, hn, decodeBytes, wordOfBytes, hbyte, hw,
      show w < 256 by omega] using h
  · exfalso
    by_cases hw' : w < 256
    · simp [decodeTableWord, tableBytes, hn, decodeBytes, wordOfBytes, hw, hw',
        Nat.mod_eq_of_lt] at h
    · simp [decodeTableWord, tableBytes, hn, hw'] at h

theorem decode_command_of_decodeTableWord {nbits w : Nat} {i : Instr} (hn : ¬ nbits ≤ 8)
    (h : decodeTableWord nbits w = some i) : decode (.command (BitVec.ofNat 10 w)) = i := by
  by_cases hw : w < 1024
  · have hhigh : w / 256 % 256 < 4 := by omega
    have hword : w % 256 + 256 * (w / 256 % 256) = w := by omega
    simpa [decodeTableWord, tableBytes, hn, decodeBytes, wordOfBytes, hhigh, hword,
      show w < 65536 by omega] using h
  · exfalso
    by_cases hw' : w < 65536
    · have hhigh : ¬ w / 256 % 256 < 4 := by omega
      simp [decodeTableWord, tableBytes, hn, decodeBytes, wordOfBytes, hhigh, hw'] at h
    · simp [decodeTableWord, tableBytes, hn, hw'] at h

/-! ### The statements -/

/-- Settles O14: the fetched request is the word at the port, and its decoding is total. -/
theorem stepRunsTheFetchedInstruction : Obligations.StepRunsTheFetchedInstruction := by
  unfold Obligations.StepRunsTheFetchedInstruction
  intro s i hs hb
  refine ⟨fun c rest hr hp hi => ?_, fun r hr hi => ?_⟩
  · obtain rfl : decode (.command c) = i := by simpa using hi
    rw [step_of_fetch_run hs (State.fetch_command hb hr hp), State.takeRequest, hp, List.drop_one,
      List.tail_cons]
  · obtain rfl : decode (.slot r) = i := by simpa using hi
    rw [step_of_fetch_run hs (State.fetch_slot hb hr), State.takeRequest]

/-- Settles O15, by the format of the word: a slot request of one byte or a command word of two. -/
theorem fetchWordRunsNext : Obligations.FetchWordRunsNext := by
  unfold Obligations.FetchWordRunsNext
  intro s nbits w i h
  unfold State.withFetchWord
  split
  case isTrue hn =>
    obtain rfl := decode_slot_of_decodeTableWord hn h
    rw [step_of_fetch_run rfl (State.fetch_slot rfl rfl), State.takeRequest]
  case isFalse hn =>
    obtain rfl := decode_command_of_decodeTableWord hn h
    rw [step_of_fetch_run rfl (State.fetch_command rfl rfl rfl), State.takeRequest, List.drop_one,
      List.tail_cons]

/-- Settles O31: each is the one pending move; the host's writes of `ie` are answered because the
engine is idle. -/
theorem hostAndPlatformMoves : Obligations.HostAndPlatformMoves := by
  unfold Obligations.HostAndPlatformMoves
  intro s rest
  refine ⟨fun hb hs => ?_, fun hb hs => ?_, fun hs => ?_, fun k n hs => ?_⟩ <;>
    rw [step_of_schedule_cons hs]
  · simp [agentMove, State.whenIdle, hb, State.lowerStrobes]
  · simp [agentMove, State.whenIdle, hb, State.lowerStrobes]
  · rfl
  · rfl

end Sys2Proof.Machine
end

section
/-! Acceptance, completion and what a busy engine does with a command (spec 10_state.md R33, R34, R36;
70_reset_and_hazards.md R221). -/

namespace Sys2Proof.Machine

variable {s t : State}

/-! ### The engine's step by its cases -/

theorem State.engineStep_accepts {c : CommandWord} {rest : List CommandWord} (hb : s.busy = false)
    (hp : s.program = c :: rest) : s.engineStep = { s with program := rest }.accept c := by
  simp [State.engineStep, hb, hp]

theorem State.engineStep_completes (hb : s.busy = true)
    (hend : s.pos.toNat = (microsequence s.op).length) : s.engineStep = s.complete := by
  simp [State.engineStep, hb, hend]

theorem opCode_operationOf (v : BitVec 2) : opCode (operationOf v) = v := by
  revert v
  decide

/-- The response word of each operation, format P (30_encoding.md R85). -/
theorem State.response_eq (s : State) : s.response = match s.op with
    | .reset => if s.present then 0x01 else 0x00
    | .readByte => s.sh
    | .writeByte => 0x00
    | .configure => 0x00 := by
  unfold State.response
  cases s.op with
  | reset => cases s.present <;> rfl
  | readByte => rfl
  | writeByte => rfl
  | configure => rfl

/-! ### What a busy engine keeps -/

/-- A public operation asked for while busy is not accepted (R33; log 9). -/
theorem exec_busy {i : Instr} (hi : i.isPublic = true) (hb : s.busy = true) : exec i s = .next s := by
  cases i with
  | reset data => simp [exec, execReset, State.whenReady, hb]
  | readByte data => simp [exec, execReadByte, State.whenReady, hb]
  | writeByte value => simp [exec, execWriteByte, State.whenReady, hb]
  | configure data => simp [exec, execConfigure, State.whenReady, hb]
  | writeBit bit => cases hi
  | readBit ignored => cases hi

/-- The engine's step while busy takes no word and records no `ACCEPT` (R33). -/
theorem State.engineStep_busy_keeps_requests (hb : s.busy = true) :
    s.engineStep.program = s.program ∧
      count isAccept s.engineStep.trace = count isAccept s.trace := by
  obtain ⟨m, -, -, h⟩ | ⟨-, -, h⟩ | ⟨-, -, h⟩ | ⟨c, rest, hidle, -⟩ | ⟨hidle, -⟩ :=
    s.engineStep_cases
  · simp [h, State.perform_count_isAccept]
  · simp [h, isAccept]
  · simp [h]
  · simp [hb] at hidle
  · simp [hb] at hidle

/-! ### The statements -/

/-- Settles O6: the values that the reset table gives. -/
theorem resetStateIsIdleAndReleased : Obligations.ResetStateIsIdleAndReleased := by
  unfold Obligations.ResetStateIsIdleAndReleased
  simp [State.reset]

/-- Settles O16: the step is the acceptance of the first word, whose operation is its upper two
bits. -/
theorem acceptanceOfACommand : Obligations.AcceptanceOfACommand := by
  unfold Obligations.AcceptanceOfACommand
  intro s c rest hb hp
  simp only [State.engineStep_accepts hb hp]
  refine ⟨rfl, opCode_operationOf _, rfl, rfl, ?_, rfl, rfl, rfl, rfl, rfl, rfl, rfl⟩
  rw [State.accept_sh, State.accept_op]
  cases operationOf (commandOp c) <;> rfl

/-- Settles O17. -/
theorem busyEngineAcceptsNothing : Obligations.BusyEngineAcceptsNothing := by
  unfold Obligations.BusyEngineAcceptsNothing
  intro s hb
  obtain ⟨hprogram, hcount⟩ := State.engineStep_busy_keeps_requests hb
  obtain ⟨-, seg, htrace, -, -⟩ := State.TraceGrowsTo.engineStep s
  have hseg : count isAccept seg = 0 := by simpa [htrace] using hcount
  exact ⟨fun i hi => exec_busy hi hb, ⟨seg, htrace, hseg⟩, hprogram, fun c rest hs =>
    step_of_schedule_cons hs⟩

/-- Settles O19: the step is the completion. -/
theorem completionAtTheEnd : Obligations.CompletionAtTheEnd := by
  unfold Obligations.CompletionAtTheEnd
  intro s hb hend
  simp only [State.engineStep_completes hb hend]
  refine ⟨rfl, rfl, rfl, rfl, rfl, rfl, rfl, rfl, rfl, s.response_eq.trans ?_⟩
  cases s.op <;> rfl

end Sys2Proof.Machine
end

section
/-! What the whole operations leave, and what no step writes (spec 10_state.md R30, R34, R35, R37;
70_reset_and_hazards.md R222). -/

namespace Sys2Proof.Machine

variable {s t : State}

/-! ### The completed operation -/

/-- Acceptance is the one `ACCEPT` and completion the last entry that an operation records (R33, R34). -/
theorem State.completed_trace (s : State) (c : CommandWord) (o : Operation) :
    ∃ seg, ((s.accept c).operationBody o).complete.trace = s.trace ++ seg ∧
      count isAccept seg = 1 ∧
      seg.getLast? = some (((s.accept c).operationBody o).now,
        .complete ((s.accept c).operationBody o).response) := by
  obtain ⟨-, seg, htrace, -, -⟩ :=
    (State.TraceGrowsTo.accept s c).trans (.operationBody o (s.accept c))
  have hcount := State.operationBody_count_isAccept o (s.accept c)
  have hseg : count isAccept seg = 1 := by
    rw [htrace] at hcount
    simpa [isAccept] using hcount
  refine ⟨seg ++ [_], by rw [State.complete_trace, htrace, List.append_assoc], ?_,
    List.getLast?_concat⟩
  simp [hseg, isAccept]

/-- Settles O26: each command is acceptance, body and completion. -/
theorem everyCommandCompletes : Obligations.EveryCommandCompletes := by
  unfold Obligations.EveryCommandCompletes
  intro s i o ho hb
  obtain ⟨data, -, hexec⟩ := exec_of_requestedOperation ho
  obtain ⟨seg, htrace, hcount, hlast⟩ := s.completed_trace (commandWord o data) o
  refine ⟨_, seg, hexec s hb, rfl, by simp, by simp, ?_, rfl, htrace, hcount, hlast, ?_⟩
  · exact State.operationBody_accept_pos o s _ (by simp)
  · rw [State.complete_rsp, State.response_eq, State.operationBody_op, State.accept_op,
      operationOf_commandWord]
    cases o <;> rfl

/-! ### The frame -/

/-- READ_BIT writes bit `bitcnt` of `sh` and no other (R141, R159 (2)). -/
theorem State.readSlot_getLsbD_sh (s : State) {j : Nat} (hj : j ≠ s.bitcnt.toNat) :
    s.readSlot.sh.getLsbD j = s.sh.getLsbD j := by
  rw [State.readSlot_sh]
  by_cases hlt : j < 8
  · rw [getLsbD_setBit _ _ _ hlt, if_neg hj]
  · rw [BitVec.getLsbD_of_ge _ _ (by omega), BitVec.getLsbD_of_ge _ _ (by omega)]

/-- Settles O30: what the slots and the bodies of the operations leave in each field. -/
theorem frameOfTheOperations : Obligations.FrameOfTheOperations := by
  unfold Obligations.FrameOfTheOperations
  intro s t i hb h
  obtain ⟨bit, rfl, rfl⟩ | ⟨ignored, rfl, rfl⟩ | ⟨o, data, ho, hdata, rfl⟩ := exec_idle_eq_next hb h
  · simp [hb]
  · simpa [hb] using fun j hj => s.readSlot_getLsbD_sh hj
  · cases i with
    | reset d =>
      cases ho
      simp [Instr.isPublic, isByteOperation, State.operationBody_sh, shiftAtAcceptance]
    | readByte d =>
      cases ho
      simp [Instr.isPublic, isByteOperation, State.operationBody_present]
    | writeByte v =>
      cases ho
      cases hdata rfl
      simp [Instr.isPublic, isByteOperation, State.operationBody_sh, State.operationBody_present,
        shiftAtAcceptance]
    | configure d =>
      cases ho
      simp [Instr.isPublic, isByteOperation, State.operationBody_sh, State.operationBody_present,
        shiftAtAcceptance]
    | writeBit bit => cases ho
    | readBit ignored => cases ho

/-! ### The inputs -/

/-- The inputs of the engine that are constant over a run (R13, R30). -/
def State.staticInputs (s : State) : TimingConfig × Tolerance := (s.cfg, s.tolerance)

theorem State.engineStep_staticInputs (s : State) :
    s.engineStep.staticInputs = s.staticInputs := by
  obtain ⟨m, -, -, h⟩ | ⟨-, -, h⟩ | ⟨-, -, h⟩ | ⟨c, rest, -, -, h⟩ | ⟨-, -, h⟩ := s.engineStep_cases
  all_goals simp [State.staticInputs, h]

theorem agentMove_staticInputs {m : Move} (h : agentMove m s = .next t) :
    t.staticInputs = s.staticInputs := by
  obtain ⟨-, rfl⟩ | ⟨c, -, rfl⟩ | ⟨-, -, rfl⟩ | ⟨-, -, rfl⟩ | ⟨-, rfl⟩ | ⟨-, -, rfl⟩ :=
    agentMove_eq_next h
  · exact s.engineStep_staticInputs
  all_goals rfl

theorem exec_idle_staticInputs {i : Instr} (hb : s.busy = false) (h : exec i s = .next t) :
    t.staticInputs = s.staticInputs := by
  obtain ⟨bit, -, rfl⟩ | ⟨-, -, rfl⟩ | ⟨o, data, -, -, rfl⟩ := exec_idle_eq_next hb h
  all_goals simp [State.staticInputs]

theorem State.takeRequest_staticInputs (s : State) (w : PortWord) :
    (s.takeRequest w).staticInputs = s.staticInputs := by
  cases w <;> rfl

/-- Settles O49, by the cases of an answered step. -/
theorem staticInputsStayConstant : Obligations.StaticInputsStayConstant := by
  unfold Obligations.StaticInputsStayConstant
  intro s t h
  suffices hkept : t.staticInputs = s.staticInputs by simpa [State.staticInputs] using hkept
  obtain ⟨m, rest, -, hm⟩ | ⟨w, -, hf, hw⟩ | ⟨-, -, rfl⟩ | ⟨-, -, rfl⟩ := step_eq_next h
  · exact agentMove_staticInputs (s := { s with schedule := rest }) hm
  · have hidle := (s.takeRequest_busy w).trans (State.busy_eq_false_of_fetch_run hf)
    exact (exec_idle_staticInputs hidle hw).trans (s.takeRequest_staticInputs w)
  · exact s.engineStep_staticInputs
  · rfl

end Sys2Proof.Machine
end

section
/-! What earlier operations left in the registers does not matter (spec 10_state.md R21, R36). Two runs
agree when they are the same with `sh`, `present`, `rsp` and `dly` forgotten. Every micro-step keeps
agreement, since it reads none of the four but to insert a bit in `sh`; so it is enough that the two
runs agree after acceptance. -/

namespace Sys2Proof.Machine

/-- The state with its data registers, its response and its timer at 0. -/
def State.forget (s : State) : State := { s with sh := 0, present := false, rsp := 0, dly := 0 }

/-- Two states that differ at most in `sh`, `present`, `rsp` and `dly`. -/
def State.Agrees (a b : State) : Prop := a.forget = b.forget

/-! ### A step of one state, seen from the state with its registers forgotten -/

theorem State.readLine_forget (s : State) :
    s.forget.readLine = (s.readLine.1, s.readLine.2.forget) := by
  unfold State.readLine State.answer
  cases hm : s.lineMode with
  | driveLow => simp [State.forget, hm]
  | float => cases he : s.env with
    | free => simp [State.forget, hm, he]
    | script answers => cases answers <;> simp [State.forget, hm, he]
    | timed initial changes => simp [State.forget, hm, he]

theorem State.sampleLine_forget_level (s : State) : s.forget.sampleLine.1 = s.sampleLine.1 := by
  simp only [State.sampleLine, s.readLine_forget]

theorem State.sampleLine_forget_state (s : State) :
    s.forget.sampleLine.2.forget = s.sampleLine.2.forget := by
  simp only [State.sampleLine, s.readLine_forget]
  rfl

theorem State.perform_forget (s : State) (bit : Bool) (m : MicroStep) :
    (s.forget.perform bit m).forget = (s.perform bit m).forget := by
  cases m with
  | lineIfBit m => cases bit <;> rfl
  | sample d => cases d <;> exact s.sampleLine_forget_state
  | line m => rfl
  | delay k => rfl
  | irqSuspend => rfl
  | irqResume => rfl

namespace State.Agrees

variable {a b : State}

theorem sample_eq (h : a.Agrees b) : a.sampleLine.1 = b.sampleLine.1 := by
  rw [← a.sampleLine_forget_level, h, b.sampleLine_forget_level]

theorem bitcnt_eq (h : a.Agrees b) : a.bitcnt = b.bitcnt :=
  congrArg State.bitcnt (a₁ := a.forget) (a₂ := b.forget) h

theorem op_eq (h : a.Agrees b) : a.op = b.op :=
  congrArg State.op (a₁ := a.forget) (a₂ := b.forget) h

/-- Two states that agree, and in the response too, differ at most in the other three. -/
theorem eq_with (h : a.Agrees b) (hrsp : a.rsp = b.rsp) :
    b = { a with sh := b.sh, present := b.present, dly := b.dly } := by
  calc b = { b.forget with sh := b.sh, present := b.present, rsp := b.rsp, dly := b.dly } := rfl
    _ = { a.forget with sh := b.sh, present := b.present, rsp := a.rsp, dly := b.dly } := by
      rw [← h, hrsp]

/-! ### Each step of two runs -/

theorem perform (h : a.Agrees b) (bit : Bool) (m : MicroStep) :
    (a.perform bit m).Agrees (b.perform bit m) := by
  rw [State.Agrees, ← a.perform_forget, h, b.perform_forget]

/-- Equal bytes stay equal: a sample inserts the same bit in both. -/
theorem perform_sh (h : a.Agrees b) (hsh : a.sh = b.sh) (bit : Bool) (m : MicroStep) :
    (a.perform bit m).sh = (b.perform bit m).sh := by
  by_cases hm : m = .sample .toBit
  · rw [hm]
    simp [State.perform, hsh, h.bitcnt_eq, h.sample_eq]
  · rw [State.perform_sh _ _ hm, State.perform_sh _ _ hm, hsh]

theorem advance (h : a.Agrees b) (n : BitVec 7) : (a.advance n).Agrees (b.advance n) :=
  congrArg (fun s => (State.advance s n).forget) (a₁ := a.forget) (a₂ := b.forget) h

/-- Acceptance writes `op`, `pos` and `bitcnt`. -/
theorem accept (s : State) (u : Unspecified) (c : CommandWord) :
    (s.accept c).Agrees (State.accept { s with
      op := u.op, pos := u.pos, bitcnt := u.bitcnt, sh := u.sh, present := u.present, rsp := u.rsp,
      dly := u.dly } c) := rfl

theorem complete (h : a.Agrees b) (hrsp : a.response = b.response) :
    a.complete.Agrees b.complete := by
  have hforget (s : State) : s.complete.forget =
    { s.forget.emit (.complete s.response) with rspValid := true, busy := false } := rfl
  rw [State.Agrees, hforget, hforget, h, hrsp]

theorem foldl (bit : Bool) (ms : List MicroStep) : ∀ {a b : State}, a.Agrees b →
    (ms.foldl (fun s m => s.perform bit m) a).Agrees (ms.foldl (fun s m => s.perform bit m) b) := by
  induction ms with
  | nil => exact fun h => h
  | cons m ms ih => exact fun h => ih (h.perform bit m)

/-! ### RESET -/

theorem presenceSteps (h : a.Agrees b) : a.presenceSteps.Agrees b.presenceSteps :=
  h.foldl false (microsequence .reset)

/-- The result of RESET is what its own sample saw. -/
theorem presenceSteps_present (h : a.Agrees b) :
    a.presenceSteps.present = b.presenceSteps.present :=
  congrArg presentOfLevel (h.foldl false
    [.line .driveLow, .delay .resetPulse, .line .float, .delay .presenceWait]).sample_eq

/-! ### The byte operations: `sh` is written at acceptance, so it agrees too -/

/-- Two runs of a byte operation. -/
structure WithSh (a b : State) : Prop where
  agrees : a.Agrees b
  sh_eq : a.sh = b.sh

namespace WithSh

theorem perform (h : WithSh a b) (bit : Bool) (m : MicroStep) :
    WithSh (a.perform bit m) (b.perform bit m) where
  agrees := h.agrees.perform bit m
  sh_eq := h.agrees.perform_sh h.sh_eq bit m

theorem foldl (bit : Bool) (ms : List MicroStep) : ∀ {a b : State}, WithSh a b →
    WithSh (ms.foldl (fun s m => s.perform bit m) a) (ms.foldl (fun s m => s.perform bit m) b) := by
  induction ms with
  | nil => exact fun h => h
  | cons m ms ih => exact fun h => ih (h.perform bit m)

/-- The bit to send is the same in both. -/
theorem writeCurrentBit (h : WithSh a b) : WithSh a.writeCurrentBit b.writeCurrentBit := by
  unfold State.writeCurrentBit
  rw [h.sh_eq, h.agrees.bitcnt_eq]
  exact foldl _ writeSlotSteps h

theorem readSlot (h : WithSh a b) : WithSh a.readSlot b.readSlot := foldl false readSlotSteps h

theorem advance (h : WithSh a b) (n : BitVec 7) : WithSh (a.advance n) (b.advance n) where
  agrees := h.agrees.advance n
  sh_eq := h.sh_eq

theorem byteIterations {slot : State → State}
    (hslot : ∀ {a b}, WithSh a b → WithSh (slot a) (slot b)) (n : Nat) :
    ∀ {a b}, WithSh a b →
      WithSh (State.byteIterations slot n a) (State.byteIterations slot n b) := by
  induction n with
  | zero => exact fun h => h
  | succ n ih =>
    exact fun h => ih ((((hslot h).advance 7).perform false (.delay .recovery)).advance 1)

end WithSh

/-! ### The bodies -/

theorem operationBody (o : Operation) (h : a.Agrees b)
    (hsh : isByteOperation o = true → a.sh = b.sh) :
    (a.operationBody o).Agrees (b.operationBody o) ∧
    (o = .reset → (a.operationBody o).present = (b.operationBody o).present) ∧
    (isByteOperation o = true → (a.operationBody o).sh = (b.operationBody o).sh) := by
  cases o with
  | reset => exact ⟨h.presenceSteps.advance 6, fun _ => h.presenceSteps_present, nofun⟩
  | readByte =>
    obtain ⟨hagrees, hsh⟩ := WithSh.byteIterations .readSlot 8 ⟨h, hsh rfl⟩
    exact ⟨hagrees, nofun, fun _ => hsh⟩
  | writeByte =>
    obtain ⟨hagrees, hsh⟩ := WithSh.byteIterations .writeCurrentBit 8 ⟨h, hsh rfl⟩
    exact ⟨hagrees, nofun, fun _ => hsh⟩
  | configure => exact ⟨h, nofun, nofun⟩

/-- The response looks at `present` after RESET and at `sh` after READ_BYTE only (R85). -/
theorem response_eq (h : a.Agrees b) (hpresent : a.op = .reset → a.present = b.present)
    (hsh : a.op = .readByte → a.sh = b.sh) : a.response = b.response := by
  unfold State.response
  rw [← h.op_eq]
  cases ho : a.op with
  | reset => simp [hpresent ho]
  | readByte => simp [hsh ho]
  | writeByte => rfl
  | configure => rfl

end State.Agrees

/-- Acceptance gives `sh` a value of its own in a byte operation (R25, R33). -/
theorem shiftAtAcceptance_of_byteOperation {o : Operation} (ho : isByteOperation o = true)
    (data x y : Byte) : shiftAtAcceptance o data x = shiftAtAcceptance o data y := by
  cases o with
  | readByte => rfl
  | writeByte => rfl
  | reset => cases ho
  | configure => cases ho

theorem requestedOperation_of_isPublic {i : Instr} (hi : i.isPublic = true) :
    ∃ o, requestedOperation i = some o := by
  cases i with
  | writeBit bit => cases hi
  | readBit ignored => cases hi
  | reset data => exact ⟨_, rfl⟩
  | readByte data => exact ⟨_, rfl⟩
  | writeByte value => exact ⟨_, rfl⟩
  | configure data => exact ⟨_, rfl⟩

/-- Settles O29: the two runs agree after acceptance, and so at every micro-step, in the response and
at the end. -/
theorem commandsForgetEarlierState : Obligations.CommandsForgetEarlierState := by
  unfold Obligations.CommandsForgetEarlierState
  intro s i u hi hb
  obtain ⟨o, ho⟩ := requestedOperation_of_isPublic hi
  obtain ⟨data, -, hexec⟩ := exec_of_requestedOperation ho
  obtain ⟨hbody, hpresent, hsh⟩ :=
    (State.Agrees.accept s u (commandWord o data)).operationBody o fun hbyte => by
      simpa using shiftAtAcceptance_of_byteOperation hbyte data s.sh u.sh
  have hresponse := hbody.response_eq (by simpa using hpresent)
    fun hread => hsh (by simp at hread; simp [hread, isByteOperation])
  refine ⟨_, _, hexec s hb, hexec _ hb, (hbody.complete hresponse).eq_with hresponse, ?_, ?_, ?_⟩
  · rintro ⟨d, rfl⟩
    cases ho
    exact ⟨(hpresent rfl).symm, by simp, by simp [State.operationBody_sh, shiftAtAcceptance],
      by simp [State.operationBody_sh, shiftAtAcceptance]⟩
  · rintro ⟨d, rfl | rfl⟩ <;> cases ho <;>
      exact ⟨(hsh rfl).symm, by simp, by simp [State.operationBody_present],
        by simp [State.operationBody_present]⟩
  · rintro ⟨d, rfl⟩
    cases ho
    simp [State.operationBody_sh, State.operationBody_present, shiftAtAcceptance]

end Sys2Proof.Machine
end

section
/-! Words and instructions: the codec in both directions, the row that covers a command word, and the
whole operation that a command word asks for (spec 30_encoding.md R80 to R86). -/

namespace Sys2Proof.Machine

/-! ### Decoding an encoding -/

/-- No bit of an instruction is lost in its word, the ignored ones included (R83, R86). -/
@[simp] theorem decode_encode (i : Instr) : decode (encode i) = i := by
  cases i with
  | reset data => simp [encode, decode, decodeCommand]
  | readByte data => simp [encode, decode, decodeCommand]
  | writeByte value => simp [encode, decode, decodeCommand]
  | configure data => simp [encode, decode, decodeCommand]
  | writeBit bit => cases bit <;> rfl
  | readBit ignored => cases ignored <;> rfl

/-- Settles O1: the bytes are those of the word, and the word has every bit of the instruction. -/
theorem decodeOfEncodeIsIdentity : Obligations.DecodeOfEncodeIsIdentity := by
  unfold Obligations.DecodeOfEncodeIsIdentity
  intro i
  rw [encodeBytes, decodeBytes_bytesOfWord, decode_encode]

/-! ### Encoding what was decoded -/

/-- A command word is its two fields put together (R80). -/
theorem commandWord_fields (c : CommandWord) :
    commandWord (operationOf (commandOp c)) (commandData c) = c := by
  rw [commandWord, opCode_operationOf, commandOp, commandData]
  exact (BitVec.extractLsb'_append_extractLsb'_eq_extractLsb' rfl).trans BitVec.extractLsb'_eq_self

theorem encode_decodeCommand (c : CommandWord) : encode (decodeCommand c) = .command c := by
  have hfields := commandWord_fields c
  unfold decodeCommand
  cases ho : operationOf (commandOp c) <;> rw [ho] at hfields <;> simp [encode, hfields]

theorem encode_decodeSlot (r : SlotWord) : encode (decodeSlot r) = .slot r := by
  revert r
  decide

theorem encode_decode (w : PortWord) : encode (decode w) = w := by
  cases w with
  | command c => exact encode_decodeCommand c
  | slot r => exact encode_decodeSlot r

/-- Bytes that hold a word are that word's bytes: those with a bit above its width hold none
(log 12). -/
theorem bytesOfWord_of_wordOfBytes {bs : List Byte} {w : PortWord} (h : wordOfBytes bs = .ok w) :
    bytesOfWord w = bs := by
  match bs with
  | [] => cases h
  | [b] =>
    by_cases hb : b.toNat < 4
    · simp only [wordOfBytes, hb, if_true, Except.ok.injEq] at h
      subst h
      simp [bytesOfWord, Nat.mod_eq_of_lt hb]
    · simp [wordOfBytes, hb] at h
  | [lo, hi] =>
    by_cases hhi : hi.toNat < 4
    · simp only [wordOfBytes, hhi, if_true, Except.ok.injEq] at h
      subst h
      have hfit : (lo.toNat + 256 * hi.toNat) % 1024 = lo.toNat + 256 * hi.toNat := by omega
      have hhigh : (lo.toNat + 256 * hi.toNat) / 256 = hi.toNat := by omega
      have hlow : BitVec.ofNat 8 (lo.toNat + 256 * hi.toNat) = lo := by bv_omega
      simp [bytesOfWord, hfit, hhigh, hlow]
    · simp [wordOfBytes, hhi] at h
  | _ :: _ :: _ :: _ => cases h

/-- Settles O2: the bytes hold a word, and the word is the encoding of what it decodes to. -/
theorem encodeOfDecodeIsIdentity : Obligations.EncodeOfDecodeIsIdentity := by
  unfold Obligations.EncodeOfDecodeIsIdentity
  intro bs i h
  unfold decodeBytes at h
  cases hw : wordOfBytes bs with
  | error e => simp [hw] at h
  | ok w =>
    obtain rfl : decode w = i := by simpa [hw] using h
    rw [encodeBytes, encode_decode, bytesOfWord_of_wordOfBytes hw]

/-- Settles O4: the words are closed, and the decoder reads each. -/
theorem specWordsDecode : Obligations.SpecWordsDecode := by
  unfold Obligations.SpecWordsDecode
  decide

/-! ### The row of a command word -/

theorem isPublic_decodeCommand (c : CommandWord) : (decodeCommand c).isPublic = true := by
  unfold decodeCommand
  cases operationOf (commandOp c) <;> rfl

/-- Under the mask of the command rows a word is its `op` field (R80, R82). -/
theorem commandWord_and_mask (o : Operation) (data : Byte) :
    (commandWord o data).toNat &&& 0x300 = (opCode o ++ (0 : Byte)).toNat := by
  have hmask : commandWord o data &&& ((3 : BitVec 2) ++ (0 : Byte)) = opCode o ++ (0 : Byte) := by
    rw [commandWord, BitVec.and_append]
    exact congrArg₂ (· ++ ·) (BitVec.and_allOnes (x := opCode o)) (BitVec.and_zero (x := data))
  exact congrArg BitVec.toNat hmask

/-- A row covers exactly the command words of the operation that its instruction requests (R82). -/
theorem rowOf_covers_commandWord (i : Instr) (o : Operation) (data : Byte) :
    (rowOf i).covers (.command (commandWord o data)) = true ↔ requestedOperation i = some o := by
  cases i with
  | writeBit bit => simp [rowOf, Row.covers, PortWord.width, requestedOperation]
  | readBit ignored => simp [rowOf, Row.covers, PortWord.width, requestedOperation]
  | _ =>
    simp only [rowOf, Row.covers, PortWord.width, PortWord.toNat, commandWord_and_mask,
      requestedOperation]
    cases o <;> decide

/-- The rows of the four operations differ from one another and from the rows of the slots (R82). -/
theorem rowOf_eq_decodeCommand_iff (i : Instr) (c : CommandWord) :
    rowOf i = rowOf (decodeCommand c) ↔ requestedOperation i = some (operationOf (commandOp c)) := by
  unfold decodeCommand
  cases operationOf (commandOp c) <;> cases i <;> simp [rowOf, requestedOperation]

/-! ### The operation of a command word -/

/-- The instruction of a command word, asked for while idle, is the acceptance of that word, the body
of its operation and the completion (R33, R34). -/
theorem exec_of_encode_command {s : State} {i : Instr} {c : CommandWord} (hi : encode i = .command c)
    (hb : s.busy = false) :
    exec i s = .next (((s.accept c).operationBody (operationOf (commandOp c))).complete) := by
  cases i with
  | reset data => cases hi; simp [exec, execReset, State.whenReady, hb, State.operationBody]
  | readByte data => cases hi; simp [exec, execReadByte, State.whenReady, hb, State.operationBody]
  | writeByte value => cases hi; simp [exec, execWriteByte, State.whenReady, hb, State.operationBody]
  | configure data => cases hi; simp [exec, execConfigure, State.whenReady, hb, State.operationBody]
  | writeBit bit => cases hi
  | readBit ignored => cases hi

/-- Settles O3: a row covers `c` exactly when its operation is that of `c`'s `op` field, and the
operation completes. -/
theorem commandDecodingIsTotal : Obligations.CommandDecodingIsTotal := by
  unfold Obligations.CommandDecodingIsTotal
  intro c
  refine ⟨isPublic_decodeCommand c, encode_decodeCommand c, fun i => ?_, fun s hb =>
    ⟨_, exec_of_encode_command (encode_decodeCommand c) hb, rfl⟩⟩
  have hcovers := rowOf_covers_commandWord i (operationOf (commandOp c)) (commandData c)
  rw [commandWord_fields] at hcovers
  exact hcovers.trans (rowOf_eq_decodeCommand_iff i c).symm

end Sys2Proof.Machine
end

section
/-! An environment whose answers are scripted does not look at the trace (spec 20_memory.md R57, R58),
and neither does the engine: what a run does from a state with an earlier trace put in front is what it
does without, with the same trace in front. -/

namespace Sys2Proof.Machine

/-- The state with an earlier trace put before its own. -/
def State.withPrefix (s : State) (p : Trace) : State := { s with trace := p ++ s.trace }

/-- `f` asks the environment at most `n` times and, as long as those answers are scripted, does not
look at the trace. -/
def IgnoresTrace (n : Nat) (f : State → State) : Prop :=
  ∀ (s : State) (k : Nat), scriptedFor (k + n) s.env →
    scriptedFor k (f s).env ∧ ∀ p, f (s.withPrefix p) = (f s).withPrefix p

/-- The number of the environment's answers that a micro-step may take (R104). -/
def MicroStep.answers : MicroStep → Nat
  | .line _ => 0
  | .lineIfBit _ => 0
  | .delay _ => 0
  | .sample _ => 1
  | .irqSuspend => 0
  | .irqResume => 0

/-! ### The primitives -/

theorem State.emit_withPrefix (s : State) (p : Trace) (e : Event) :
    (s.withPrefix p).emit e = (s.emit e).withPrefix p := by
  simp [State.emit, State.withPrefix, State.lowerStrobes]

theorem State.setLine_withPrefix (s : State) (p : Trace) (m : Mode) :
    (s.withPrefix p).setLine m = (s.setLine m).withPrefix p :=
  congrArg (fun t : State => { t with lineMode := m }) (s.emit_withPrefix p (.line m))

theorem State.complete_withPrefix (s : State) (p : Trace) :
    (s.withPrefix p).complete = s.complete.withPrefix p :=
  congrArg (fun t : State => { t with rsp := s.response, rspValid := true, busy := false })
    (s.emit_withPrefix p (.complete s.response))

theorem scriptedFor_of_succ {k : Nat} {env : Environment} (h : scriptedFor (k + 1) env) :
    scriptedFor k env := by
  cases env with
  | free => exact h
  | script answers => exact Nat.le_of_succ_le h
  | timed initial changes => exact h

/-- One read of the line takes at most one answer, and a scripted answer is the same whatever the
trace. -/
theorem State.readLine_ignoresTrace {s : State} {k : Nat} (h : scriptedFor (k + 1) s.env) :
    scriptedFor k s.readLine.2.env ∧
      ∀ p, (s.withPrefix p).readLine = (s.readLine.1, s.readLine.2.withPrefix p) := by
  unfold State.readLine State.answer
  cases hm : s.lineMode with
  | driveLow => simpa [State.withPrefix, hm] using scriptedFor_of_succ h
  | float =>
    cases he : s.env with
    | free => simp [he, scriptedFor] at h
    | script answers =>
      cases answers with
      | nil => simp [he, scriptedFor] at h
      | cons l rest => simpa [State.withPrefix, hm, he, scriptedFor] using h
    | timed initial changes => simp [State.withPrefix, hm, he, scriptedFor]

theorem State.sampleLine_ignoresTrace {s : State} {k : Nat} (h : scriptedFor (k + 1) s.env) :
    scriptedFor k s.sampleLine.2.env ∧
      ∀ p, (s.withPrefix p).sampleLine = (s.sampleLine.1, s.sampleLine.2.withPrefix p) := by
  obtain ⟨hleft, hread⟩ := State.readLine_ignoresTrace h
  exact ⟨hleft, fun p => by simp only [State.sampleLine, hread, State.emit_withPrefix]⟩

/-! ### What is made of micro-steps -/

namespace IgnoresTrace

variable {m n : Nat} {f g : State → State}

theorem id : IgnoresTrace 0 fun s => s := fun _ _ h => ⟨h, fun _ => rfl⟩

theorem comp (hf : IgnoresTrace n f) (hg : IgnoresTrace m g) :
    IgnoresTrace (n + m) fun s => g (f s) := by
  intro s k h
  rw [Nat.add_comm n, ← Nat.add_assoc] at h
  obtain ⟨hafter, hf⟩ := hf s (k + m) h
  obtain ⟨hleft, hg⟩ := hg (f s) k hafter
  exact ⟨hleft, fun p => (congrArg g (hf p)).trans (hg p)⟩

theorem advance (n : BitVec 7) : IgnoresTrace 0 (State.advance · n) :=
  fun _ _ h => ⟨h, fun _ => rfl⟩

theorem perform (bit : Bool) (m : MicroStep) : IgnoresTrace m.answers (State.perform · bit m) := by
  intro s k h
  cases m with
  | line m => exact ⟨h, fun p => s.setLine_withPrefix p m⟩
  | lineIfBit m =>
    cases bit with
    | false => exact ⟨h, fun _ => rfl⟩
    | true => exact ⟨h, fun p => s.setLine_withPrefix p m⟩
  | delay k =>
    exact ⟨h, fun p => congrArg
      (fun t : State =>
        State.expireTimer { t with dly := s.cfg.get k, draws := s.draws + 1 } (s.drawLength k))
      (s.emit_withPrefix p (.delay k (s.drawLength k)))⟩
  | sample d =>
    obtain ⟨hleft, hsample⟩ := State.sampleLine_ignoresTrace h
    cases d with
    | toPresence =>
      exact ⟨hleft, fun p => congrArg
        (fun r : Level × State => { r.2 with present := presentOfLevel r.1 }) (hsample p)⟩
    | toBit =>
      exact ⟨hleft, fun p => congrArg
        (fun r : Level × State =>
          { r.2 with sh := setBit s.sh s.bitcnt.toNat (bitOfLevel r.1) }) (hsample p)⟩
  | irqSuspend =>
    exact ⟨h, fun p => congrArg (fun t : State => { t with ie := false, irqSuspend := true })
      (s.emit_withPrefix p .irqSuspend)⟩
  | irqResume =>
    exact ⟨h, fun p => congrArg (fun t : State => { t with ie := true, irqResume := true })
      (s.emit_withPrefix p .irqResume)⟩

/-- A sequence of micro-steps takes an answer for each of its samples. -/
theorem performAll (bit : Bool) (ms : List MicroStep) :
    IgnoresTrace (ms.map MicroStep.answers).sum (ms.foldl (fun s m => s.perform bit m)) := by
  induction ms with
  | nil => exact id
  | cons m ms ih =>
    rw [List.map_cons, List.sum_cons]
    exact (perform bit m).comp ih

theorem presenceSteps : IgnoresTrace 1 State.presenceSteps := performAll false (microsequence .reset)

theorem readSlot : IgnoresTrace 1 State.readSlot := performAll false readSlotSteps

theorem writeCurrentBit : IgnoresTrace 0 State.writeCurrentBit :=
  fun s => performAll (bitAt s.sh s.bitcnt.toNat) writeSlotSteps s

theorem byteIterations (hslot : IgnoresTrace n f) (i : Nat) :
    IgnoresTrace (i * n) (State.byteIterations f i) := by
  induction i with
  | zero => rw [Nat.zero_mul]; exact id
  | succ i ih =>
    have hiteration : IgnoresTrace n (State.byteIteration f) :=
      ((hslot.comp (advance 7)).comp (perform false (.delay .recovery))).comp (advance 1)
    rw [Nat.succ_mul, Nat.add_comm]
    exact hiteration.comp ih

end IgnoresTrace

/-- READ_BYTE takes eight answers, RESET one, the others none (R109). -/
theorem State.operationBody_withPrefix (o : Operation) {s : State} (h : scriptedFor 8 s.env)
    (p : Trace) : (s.withPrefix p).operationBody o = (s.operationBody o).withPrefix p := by
  cases o with
  | reset => exact ((IgnoresTrace.presenceSteps.comp (.advance 6)) s 7 h).2 p
  | readByte => exact (IgnoresTrace.readSlot.byteIterations 8 s 0 h).2 p
  | writeByte => exact (IgnoresTrace.writeCurrentBit.byteIterations 8 s 8 h).2 p
  | configure => rfl

/-! ### The ignored data -/

/-- The state right after the acceptance of an operation other than WRITE_BYTE, without the trace: it
does not depend on the word's data (R25, R33). -/
def State.accepted (s : State) (o : Operation) : State :=
  { s.accept (commandWord o 0) with trace := [] }

theorem State.accept_eq_accepted {o : Operation} (ho : o ≠ .writeByte) (s : State) (data : Byte) :
    s.accept (commandWord o data) =
      (s.accepted o).withPrefix (s.trace ++ [(s.now, .accept (commandWord o data))]) := by
  have hshift : shiftAtAcceptance o data s.sh = shiftAtAcceptance o 0 s.sh := by
    cases o with
    | writeByte => exact absurd rfl ho
    | reset => rfl
    | readByte => rfl
    | configure => rfl
  ext <;> simp [State.withPrefix, State.accepted, hshift]

/-- Instructions whose words differ in the ignored data only give one state, and record the same after
`ACCEPT` (R83). -/
theorem exec_ignores_data {o : Operation} (ho : o ≠ .writeByte) {i : Byte → Instr}
    (hi : ∀ data, encode (i data) = .command (commandWord o data)) {s : State}
    (hb : s.busy = false) (henv : scriptedFor 8 s.env) :
    ∃ (t : State) (rest : Trace), ∀ data, exec (i data) s =
      .next { t with trace := s.trace ++ (s.now, .accept (commandWord o data)) :: rest } := by
  have henv' : scriptedFor 8 (s.accepted o).env := henv
  refine ⟨((s.accepted o).operationBody o).complete,
    ((s.accepted o).operationBody o).complete.trace, fun data => ?_⟩
  rw [exec_of_encode_command (hi data) hb, operationOf_commandWord, State.accept_eq_accepted ho,
    State.operationBody_withPrefix o henv', State.complete_withPrefix, State.withPrefix,
    List.append_assoc, List.singleton_append]

/-- Settles O5, the data by `exec_ignores_data`; READ_BIT does not look at its bit. -/
theorem ignoredFieldsChangeNothing : Obligations.IgnoredFieldsChangeNothing := by
  unfold Obligations.IgnoredFieldsChangeNothing
  refine ⟨fun s hb henv => ⟨?_, ?_, ?_⟩, fun _ _ _ => rfl⟩
  · simpa only [commandWord_reset] using
      exec_ignores_data (o := .reset) (i := .reset) nofun (fun _ => rfl) hb henv
  · simpa only [commandWord_readByte] using
      exec_ignores_data (o := .readByte) (i := .readByte) nofun (fun _ => rfl) hb henv
  · simpa only [commandWord_configure] using
      exec_ignores_data (o := .configure) (i := .configure) nofun (fun _ => rfl) hb henv

end Sys2Proof.Machine
end

section
/-! The five primitives (spec 40_sequencer_primitives.md R101 to R106, R111): a sample by what the line
and the environment show, and the statements about each primitive alone. -/

namespace Sys2Proof.Machine

variable {s : State}

/-! ### Samples by what is on the line (R57, R58) -/

/-- A sample writes one entry of the trace, the pulses and the environment's own fields (R104). -/
theorem State.sampleLine_frame (s : State) :
    s.sampleLine.2 = { s.lowerStrobes with
      trace := s.trace ++ [(s.now, .sample s.sampleLine.1)]
      env := s.sampleLine.2.env, draws := s.sampleLine.2.draws } := by
  ext <;> simp

/-- While the master drives, the environment is not asked (R57; log 13). -/
theorem State.sampleLine_driven (hm : s.lineMode = .driveLow) :
    s.sampleLine.1 = .low ∧ s.sampleLine.2.env = s.env ∧ s.sampleLine.2.draws = s.draws := by
  simp [State.sampleLine, State.readLine, hm]

/-- Without a script, or with an exhausted one, the oracle answers freely (R57, R58). -/
theorem State.sampleLine_free (hm : s.lineMode = .float) (he : s.env = .free ∨ s.env = .script []) :
    s.sampleLine.1 = Config.envLevel s.trace s.now s.draws ∧ s.sampleLine.2.env = s.env ∧
      s.sampleLine.2.draws = s.draws + 1 := by
  rcases he with he | he <;> simp [State.sampleLine, State.readLine, hm, State.answer, he]

/-- The last change of a timed script counts if its time has come (R58, R142). -/
theorem levelAt_concat (initial b : Level) (changes : List (Nat × Level)) (t0 t : Nat) :
    levelAt initial (changes ++ [(t0, b)]) t = if t0 ≤ t then b else levelAt initial changes t := by
  simp [levelAt]

/-! ### The statements -/

/-- Settles O11: the length is the one drawn, and `JITTER` is at most 2 by its type. -/
theorem delayStaysWithinTolerance : Obligations.DelayStaysWithinTolerance := by
  unfold Obligations.DelayStaysWithinTolerance
  intro s k bit
  exact ⟨s.drawLength k, s.delay_now k, s.delay_trace k, Nat.le_of_lt_succ s.tolerance.jitter.isLt,
    s.le_drawLength k, fun h => State.drawLength_le h k, s.delay_lineMode k, s.delay_ie k⟩

/-- Settles O8: the mode is not compared with the one before. -/
theorem setLineRequestsTheMode : Obligations.SetLineRequestsTheMode := by
  unfold Obligations.SetLineRequestsTheMode
  intro s m bit
  refine ⟨s.setLine_lineMode m, s.setLine_trace m, s.setLine_now m, s.setLine_ie m,
    s.setLine_present m, s.setLine_sh m, s.setLine_busy m, s.setLine_rsp m, ?_⟩
  cases m <;> rfl

/-- Settles O9: neither primitive reads `ie`, so the last one performed decides it. -/
theorem interruptionControlDoesNotNest : Obligations.InterruptionControlDoesNotNest := by
  unfold Obligations.InterruptionControlDoesNotNest
  intro s bit
  exact ⟨⟨s.suspendIrq_ie, s.suspendIrq_irqSuspend, s.suspendIrq_trace, s.suspendIrq_now,
      s.suspendIrq_lineMode, s.suspendIrq_sh, s.suspendIrq_present⟩,
    ⟨s.resumeIrq_ie, s.resumeIrq_irqResume, s.resumeIrq_trace, s.resumeIrq_now,
      s.resumeIrq_lineMode, s.resumeIrq_sh, s.resumeIrq_present⟩,
    s.suspendIrq.suspendIrq.resumeIrq_ie⟩

/-- Settles O10: in the nominal model the length drawn is the duration. -/
theorem nominalDelayLastsItsDuration : Obligations.NominalDelayLastsItsDuration := by
  unfold Obligations.NominalDelayLastsItsDuration
  intro s k bit h
  have hlength : s.drawLength k = (s.cfg.get k).toNat := State.drawLength_nominal h k
  exact ⟨hlength ▸ s.delay_now k, hlength ▸ s.delay_trace k, s.delay_lineMode k, s.delay_ie k,
    s.delay_sh k, s.delay_present k⟩

/-- Settles O12: one lemma for each form of the environment, and the frame of a sample. -/
theorem sampleLineReadsOnce : Obligations.SampleLineReadsOnce := by
  unfold Obligations.SampleLineReadsOnce
  intro s
  refine ⟨State.sampleLine_driven, fun hm => ⟨State.sampleLine_free hm, fun a rest he =>
    State.sampleLine_script hm he, fun a he => State.sampleLine_timed hm he,
    fun a changes t0 b he => ?_⟩, s.sampleLine_frame⟩
  obtain ⟨hlevel, henv, hdraws⟩ := State.sampleLine_timed hm he
  obtain ⟨hearlier, -, -⟩ :=
    State.sampleLine_timed (s := { s with env := .timed a changes }) hm rfl
  exact ⟨by rw [hlevel, levelAt_concat, hearlier], henv, hdraws⟩

end Sys2Proof.Machine
end

section
/-! The step of a busy engine as the micro-step at its position (spec 40_sequencer_primitives.md R107):
what the micro-step records, writes and takes of the time. -/

namespace Sys2Proof.Machine

variable (s : State) (bit : Bool) (m : MicroStep)

/-! ### One micro-step: the trace, the time, `present` and `sh` -/

theorem State.currentBit_eq_getLsbD : s.currentBit = s.sh.getLsbD s.bitcnt.toNat :=
  bitAt_eq_getLsbD _ _

/-- What the engine's micro-step records (R101 to R107). -/
theorem State.perform_currentBit_trace :
    (s.perform s.currentBit m).trace = s.trace ++ (s.eventsOf m).map fun e => (s.now, e) := by
  cases m with
  | lineIfBit d =>
    rw [s.currentBit_eq_getLsbD]
    cases hbit : s.sh.getLsbD s.bitcnt.toNat <;> simp [State.perform, State.eventsOf, hbit]
  | sample d => cases d <;> simp [State.perform, State.eventsOf]
  | line d => rfl
  | delay k => rfl
  | irqSuspend => rfl
  | irqResume => rfl

theorem State.eventsOf_length_le : (s.eventsOf m).length ≤ 1 := by
  cases m with
  | lineIfBit d => cases hbit : s.sh.getLsbD s.bitcnt.toNat <;> simp [State.eventsOf, hbit]
  | _ => exact le_rfl

/-- Nothing is recorded exactly for `LINE_IF_BIT` of a 0 (R107). -/
theorem State.eventsOf_eq_nil_iff :
    s.eventsOf m = [] ↔ (∃ d, m = .lineIfBit d) ∧ s.sh.getLsbD s.bitcnt.toNat = false := by
  cases m <;> simp [State.eventsOf]

/-- Time passes in delays only (R103). -/
theorem State.perform_now :
    (s.perform bit m).now = s.now + match m with
      | .delay k => s.drawLength k
      | _ => 0 := by
  cases m with
  | lineIfBit d => cases bit <;> rfl
  | sample d => cases d <;> simp [State.perform]
  | line d => rfl
  | delay k => rfl
  | irqSuspend => rfl
  | irqResume => rfl

/-- Only the sample of RESET writes `present` (R28, R107). -/
theorem State.perform_present {m : MicroStep} (hm : m ≠ .sample .toPresence) :
    (s.perform bit m).present = s.present := by
  cases m with
  | lineIfBit d => cases bit <;> rfl
  | sample d =>
    cases d with
    | toPresence => exact absurd rfl hm
    | toBit => exact s.sampleBit_present
  | line d => rfl
  | delay k => rfl
  | irqSuspend => rfl
  | irqResume => rfl

theorem presentOfLevel_eq_decide (l : Level) : presentOfLevel l = decide (l = .low) := by
  cases l <;> rfl

theorem bitOfLevel_eq_decide (l : Level) : bitOfLevel l = decide (l = .high) := by
  cases l <;> rfl

/-! ### The step of a busy engine -/

section Busy

variable {s} {m}

theorem State.engineStep_performs (hb : s.busy = true)
    (hm : (microsequence s.op)[s.pos.toNat]? = some m) :
    s.engineStep = (s.perform s.currentBit m).advance 1 := by
  simp [State.engineStep, hb, hm]

/-- With no move and no slot request pending a busy engine makes its own step (log 6). -/
theorem step_of_busy (hs : s.schedule = []) (hr : s.slotReq = none) (hb : s.busy = true) :
    step s = .next s.engineStep := by
  simp [step, hs, State.fetch, hb, hr]

/-- `LINE_IF_BIT` stands in the microsequences with `FLOAT` only (R108). -/
theorem lineIfBit_mem_microsequence {o : Operation} {d : Mode}
    (h : .lineIfBit d ∈ microsequence o) : d = .float := by
  cases d with
  | float => rfl
  | driveLow =>
    have hnone : .lineIfBit .driveLow ∉ microsequence o := by cases o <;> decide
    exact absurd h hnone

end Busy

/-- Settles O18: the step is the engine's micro-step, and each field has its lemma. -/
theorem oneMicroStepAtATime : Obligations.OneMicroStepAtATime := by
  unfold Obligations.OneMicroStepAtATime
  intro s m hinv hs hr hb hm
  refine ⟨_, _, by rw [step_of_busy hs hr hb, State.engineStep_performs hb hm], rfl, by simpa,
    by simp, ?pos, ?bitcnt, s.perform_currentBit_trace m, rfl, ?one, ?none, ?line, ?ie, ?sampled,
    fun hne => s.perform_present _ hne, ?bit, fun hne => s.perform_sh _ hne, ?delay, ?instant,
    by simp, by simp, by simp⟩
  case pos =>
    rw [State.advance_pos, State.perform_pos, State.pos_add_one_toNat (State.Inv.pos_lt hm)]
  case bitcnt =>
    split
    case isTrue hbyte => exact hinv.bitcnt_step hb hm hbyte _
    case isFalse hbyte => simp [hbyte]
  case one => simpa using s.eventsOf_length_le m
  case none =>
    rw [List.map_eq_nil_iff, State.eventsOf_eq_nil_iff]
    refine and_congr_left fun _ => ⟨?_, fun h => ⟨_, h⟩⟩
    rintro ⟨d, rfl⟩
    rw [lineIfBit_mem_microsequence (List.mem_of_getElem? hm)]
  case line =>
    rw [State.advance_lineMode, State.perform_lineMode, State.currentBit_eq_getLsbD]
    cases m <;> rfl
  case ie =>
    rw [State.advance_ie, State.perform_ie]
    cases m <;> rfl
  case sampled =>
    rintro rfl
    exact presentOfLevel_eq_decide _
  case bit =>
    rintro rfl i hi
    rw [← bitOfLevel_eq_decide]
    exact getLsbD_setBit _ _ _ hi
  case delay =>
    rintro k rfl
    rfl
  case instant =>
    intro hne
    rw [State.advance_now, State.perform_now]
    cases m with
    | delay k => exact absurd rfl (hne k)
    | _ => rfl

end Sys2Proof.Machine
end

section
/-! The operations as their microsequences (spec 40_sequencer_primitives.md R107, R108). The engine
moves the position after every micro-step, the operations once after several: a micro-step does not
look at the position, and within a slot `bitcnt` stays (10_state.md R26). -/

namespace Sys2Proof.Machine

/-- Settles O21: the steps of the two slots are the entries of `WSLOT` and `RSLOT`. -/
theorem slotIsItsMicrosequence : Obligations.SlotIsItsMicrosequence := by
  unfold Obligations.SlotIsItsMicrosequence
  exact fun s bit => ⟨rfl, rfl⟩

/-! ### A micro-step does not look at the position -/

variable {s : State} {n : BitVec 7}

theorem State.readLine_advance (s : State) (n : BitVec 7) :
    (s.advance n).readLine = (s.readLine.1, s.readLine.2.advance n) := by
  unfold State.readLine State.answer
  cases hm : s.lineMode with
  | driveLow => simp [hm]
  | float =>
    cases he : s.env with
    | free => simp [hm, he, State.advance]
    | script answers => cases answers <;> simp [hm, he, State.advance]
    | timed initial changes => simp [hm, he]

theorem State.sampleLine_advance (s : State) (n : BitVec 7) :
    (s.advance n).sampleLine = (s.sampleLine.1, s.sampleLine.2.advance n) := by
  simp only [State.sampleLine, s.readLine_advance]
  rfl

/-- A micro-step may be performed before or after an advance that leaves `bitcnt`. -/
theorem State.perform_advance (hn : (s.advance n).bitcnt = s.bitcnt) (bit : Bool) (m : MicroStep) :
    (s.advance n).perform bit m = (s.perform bit m).advance n := by
  cases m with
  | lineIfBit d => cases bit <;> rfl
  | sample d =>
    cases d with
    | toPresence => simp only [State.perform, State.samplePresence, s.sampleLine_advance]; rfl
    | toBit => simp only [State.perform, State.sampleBit, s.sampleLine_advance, hn]; rfl
  | line d => rfl
  | delay k => rfl
  | irqSuspend => rfl
  | irqResume => rfl

theorem State.advance_eq (hn : (s.advance n).bitcnt = s.bitcnt) :
    s.advance n = { s with pos := s.pos + n } :=
  congrArg (fun b => { s with pos := s.pos + n, bitcnt := b }) hn

theorem State.advance_zero (hn : (s.advance 0).bitcnt = s.bitcnt) : s.advance 0 = s :=
  (State.advance_eq hn).trans (congrArg (fun p => { s with pos := p }) (BitVec.add_zero s.pos))

theorem State.advance_advance (hn : (s.advance n).bitcnt = s.bitcnt) (m : BitVec 7) :
    (s.advance n).advance m = s.advance (n + m) := by
  rw [State.advance_eq hn]
  simp [State.advance, BitVec.add_assoc]

/-! ### Several steps of the engine -/

/-- Micro-steps one after another, each with the bit that `sh` and `bitcnt` then show. -/
def State.performAll (s : State) (ms : List MicroStep) : State :=
  ms.foldl (fun t m => t.perform t.currentBit m) s

theorem State.performAll_concat (s : State) (ms : List MicroStep) (m : MicroStep) :
    s.performAll (ms ++ [m]) = (s.performAll ms).perform (s.performAll ms).currentBit m :=
  List.foldl_concat ..

theorem State.performAll_keeps {α : Type} (f : State → α)
    (hf : ∀ s bit m, f (State.perform s bit m) = f s) (ms : List MicroStep) :
    ∀ s : State, f (s.performAll ms) = f s := by
  induction ms with
  | nil => exact fun _ => rfl
  | cons m ms ih => exact fun s => (ih _).trans (hf s _ m)

@[simp] theorem State.performAll_busy (ms : List MicroStep) : (s.performAll ms).busy = s.busy :=
  State.performAll_keeps (·.busy) (by simp) ms s
@[simp] theorem State.performAll_op (ms : List MicroStep) : (s.performAll ms).op = s.op :=
  State.performAll_keeps (·.op) (by simp) ms s
@[simp] theorem State.performAll_pos (ms : List MicroStep) : (s.performAll ms).pos = s.pos :=
  State.performAll_keeps (·.pos) (by simp) ms s
@[simp] theorem State.performAll_bitcnt (ms : List MicroStep) :
    (s.performAll ms).bitcnt = s.bitcnt :=
  State.performAll_keeps (·.bitcnt) (by simp) ms s

/-- The engine's step at a position that only the advance has moved. -/
theorem State.engineStep_advance {m : MicroStep} (hb : s.busy = true)
    (hn : (s.advance n).bitcnt = s.bitcnt)
    (hm : (microsequence s.op)[(s.pos + n).toNat]? = some m) :
    (s.advance n).engineStep = (s.perform s.currentBit m).advance (n + 1) := by
  have hbit : (s.advance n).currentBit = s.currentBit := by
    rw [State.currentBit, hn, State.advance_sh, State.currentBit]
  rw [State.engineStep_performs (s := s.advance n) hb hm, hbit, State.perform_advance hn,
    State.advance_advance (by simpa using hn)]

/-- The engine performs the micro-steps `ms` that stand from its position on, if `bitcnt` stays. -/
theorem State.engineSteps_eq_performAll (hb : s.busy = true) (ms : List MicroStep)
    (hms : ∀ j < ms.length, (microsequence s.op)[(s.pos + BitVec.ofNat 7 j).toNat]? = ms[j]?)
    (hbit : ∀ j ≤ ms.length, (s.advance (BitVec.ofNat 7 j)).bitcnt = s.bitcnt) :
    s.engineSteps ms.length = (s.performAll ms).advance (BitVec.ofNat 7 ms.length) := by
  induction ms using List.reverseRecOn with
  | nil => exact (State.advance_zero (hbit 0 le_rfl)).symm
  | append_singleton ms m ih =>
    rw [List.length_append, List.length_singleton] at hms hbit ⊢
    have hbefore := ih (fun j hj => by rw [hms j (by omega), List.getElem?_append_left hj])
      fun j hj => hbit j (by omega)
    have hat := hms ms.length (by omega)
    rw [List.getElem?_concat_length] at hat
    rw [State.engineSteps_add, hbefore, State.performAll_concat, BitVec.ofNat_add]
    exact State.engineStep_advance (by simpa) (by simpa using hbit ms.length (by omega))
      (by simpa using hat)

/-! ### The byte operations -/

section Byte

variable {o : Operation} {slotSteps : List MicroStep} {slot : State → State}
  (hbyte : isByteOperation o = true) (hlen : slotSteps.length = 7)
  (hat : ∀ p < 64, (microsequence o)[p]? = (slotSteps ++ [.delay .recovery])[p % 8]?)
  (hslot : ∀ s, State.performAll s slotSteps = slot s)

include hlen hat hslot

/-- The engine performs an iteration in eight steps: the slot's seven and the recovery delay (R108,
R150). -/
theorem State.engineSteps_byteIteration {i : Nat} (hi : i < 8) (hb : s.busy = true) (ho : s.op = o)
    (hp : s.pos = BitVec.ofNat 7 (8 * i)) (hbc : s.bitcnt = BitVec.ofNat 3 i) :
    s.engineSteps 8 = State.byteIteration slot s := by
  have hpos (j : Nat) (hj : j ≤ 7) : (s.pos + BitVec.ofNat 7 j).toNat = 8 * i + j := by
    rw [hp, ← BitVec.ofNat_add, BitVec.toNat_ofNat, Nat.mod_eq_of_lt (by omega)]
  have hbit (j : Nat) (hj : j ≤ 7) : (s.advance (BitVec.ofNat 7 j)).bitcnt = s.bitcnt := by
    rw [State.advance_bitcnt, hpos j hj, hbc, show (8 * i + j) / 8 = i by omega, ite_self]
  have hsteps (j : Nat) (hj : j ≤ 7) : (microsequence s.op)[(s.pos + BitVec.ofNat 7 j).toNat]? =
      (slotSteps ++ [.delay .recovery])[j]? := by
    rw [hpos j hj, ho, hat _ (by omega), show (8 * i + j) % 8 = j by omega]
  have hseven : s.engineSteps 7 = (slot s).advance 7 := by
    have h := State.engineSteps_eq_performAll hb slotSteps
      (fun j hj => by rw [hsteps j (by omega), List.getElem?_append_left hj])
      (fun j hj => hbit j (by omega))
    rwa [hlen, hslot] at h
  have hlast : (microsequence ((slot s).advance 7).op)[((slot s).advance 7).pos.toNat]? =
      some (.delay .recovery) := by
    have h := hsteps 7 le_rfl
    rw [List.getElem?_append_right hlen.le, hlen] at h
    simpa [← hslot] using h
  rw [State.engineSteps_add 7 1, hseven]
  exact State.engineStep_performs (by simpa [← hslot]) hlast

include hbyte

/-- The rest of a byte operation from iteration `i` on (R151, R155). -/
theorem State.engineSteps_byteIterations (k : Nat) : ∀ (s : State) (i : Nat), i + k = 8 →
    s.busy = true → s.op = o → s.pos = BitVec.ofNat 7 (8 * i) →
    s.bitcnt = BitVec.ofNat 3 (min 7 i) →
      s.engineSteps (8 * k) = State.byteIterations slot k s := by
  induction k with
  | zero => exact fun _ _ _ _ _ _ _ => rfl
  | succ k ih =>
    intro s i hi hb ho hp hbc
    obtain ⟨hp', hbc'⟩ := State.byteIteration_position slot s (i := i) (by omega)
      (by rw [← hslot, State.performAll_op, ho, hbyte]) (by rw [← hslot, State.performAll_pos, hp])
    rw [Nat.min_eq_right (by omega)] at hbc
    rw [Nat.mul_succ, Nat.add_comm, State.engineSteps_add,
      State.engineSteps_byteIteration hlen hat hslot (by omega) hb ho hp hbc,
      ih _ (i + 1) (by omega) (by simp [← hslot, hb]) (by simp [← hslot, ho]) hp' hbc']
    rfl

end Byte

/-! ### The whole operation -/

/-- The slots send and store the current bit throughout: no micro-step of a write slot changes it, and
a read slot has no `LINE_IF_BIT`. -/
theorem State.performAll_writeSlotSteps (s : State) :
    s.performAll writeSlotSteps = s.writeCurrentBit := rfl

theorem State.performAll_readSlotSteps (s : State) : s.performAll readSlotSteps = s.readSlot := rfl

theorem State.performAll_reset (s : State) :
    s.performAll (microsequence .reset) = s.presenceSteps := rfl

/-- From acceptance on, the engine's steps perform the body of the operation (R107, R108). -/
theorem State.engineSteps_accept (s : State) (c : CommandWord) {o : Operation}
    (ho : operationOf (commandOp c) = o) :
    (s.accept c).engineSteps (microsequence o).length = (s.accept c).operationBody o := by
  cases o with
  | reset =>
    refine State.engineSteps_eq_performAll (s := s.accept c) rfl (microsequence .reset) ?_ ?_
    · rw [State.accept_op, ho, State.accept_pos]
      decide
    · simp [ho, isByteOperation]
  | readByte =>
    exact State.engineSteps_byteIterations rfl rfl microsequence_readByte_at
      State.performAll_readSlotSteps 8 _ 0 rfl rfl ho rfl rfl
  | writeByte =>
    exact State.engineSteps_byteIterations rfl rfl microsequence_writeByte_at
      State.performAll_writeSlotSteps 8 _ 0 rfl rfl ho rfl rfl
  | configure => rfl

/-- From an idle state with a word presented: the acceptance, the body and the completion. -/
theorem State.engineSteps_operation {c : CommandWord} {rest : List CommandWord} (hb : s.busy = false)
    (hp : s.program = c :: rest) {o : Operation} (ho : operationOf (commandOp c) = o) :
    s.engineSteps ((microsequence o).length + 2) =
      ((({ s with program := rest } : State).accept c).operationBody o).complete := by
  have hend := State.operationBody_accept_pos o { s with program := rest } c ho
  calc s.engineSteps ((microsequence o).length + 2)
      = (s.engineStep.engineSteps (microsequence o).length).engineStep :=
        State.engineSteps_add (_ + 1) 1 s
    _ = ((({ s with program := rest } : State).accept c).operationBody o).engineStep := by
        rw [State.engineStep_accepts hb hp, State.engineSteps_accept _ c ho]
    _ = ((({ s with program := rest } : State).accept c).operationBody o).complete :=
        State.engineStep_completes (by simp) (by simpa [ho] using hend)

/-- Settles O20: the first step accepts, the next perform the body, and the last completes. -/
theorem operationIsItsMicrosequence : Obligations.OperationIsItsMicrosequence := by
  unfold Obligations.OperationIsItsMicrosequence
  intro s c rest o hb hp ho
  obtain rfl : operationOf (commandOp c) = o :=
    Option.some.inj (((rowOf_eq_decodeCommand_iff (decodeCommand c) c).mp rfl).symm.trans ho)
  rw [State.engineSteps_operation hb hp rfl]
  exact exec_of_encode_command (encode_decodeCommand c) hb

end Sys2Proof.Machine
end

section
/-! Critical sections whatever the tolerance and the environment (spec 40_sequencer_primitives.md R110,
44_byte_composer.md R153): what a slot records is one section, and nothing else records a slot entry. -/

namespace Sys2Proof.Machine

variable {s t u : State}

/-- Every instruction is answered (R180). -/
theorem exec_answers (i : Instr) (s : State) : ∃ t, exec i s = .next t := by
  cases i <;> exact ⟨_, rfl⟩

/-- From `s` to `t` the trace gains complete critical sections and entries that belong to no slot. -/
def State.RecordsSections (s t : State) : Prop :=
  ∃ seg, t.trace = s.trace ++ seg ∧ sectionsWellFormed false seg = true

namespace State.RecordsSections

theorem of_trace_eq (ht : t.trace = s.trace) : s.RecordsSections t := ⟨[], by simp [ht], rfl⟩

theorem refl (s : State) : s.RecordsSections s := of_trace_eq rfl

theorem trans (hst : s.RecordsSections t) (htu : t.RecordsSections u) : s.RecordsSections u := by
  obtain ⟨seg₁, htrace₁, hseg₁⟩ := hst
  obtain ⟨seg₂, htrace₂, hseg₂⟩ := htu
  exact ⟨seg₁ ++ seg₂, by rw [htrace₂, htrace₁, List.append_assoc],
    (sectionsWellFormed_append _ _ _ hseg₁).trans hseg₂⟩

theorem accept (s : State) (c : CommandWord) : s.RecordsSections (s.accept c) :=
  ⟨_, s.accept_trace c, rfl⟩

theorem complete (s : State) : s.RecordsSections s.complete := ⟨_, s.complete_trace, rfl⟩

theorem writeSlot (s : State) (bit : Bool) : s.RecordsSections (s.writeSlot bit) := by
  obtain ⟨a, b, -, htrace, -⟩ := s.writeSlot_lengths bit
  exact ⟨_, htrace, by cases bit <;> rfl⟩

theorem readSlot (s : State) : s.RecordsSections s.readSlot := by
  obtain ⟨a, b, -, htrace, -⟩ := s.readSlot_lengths
  exact ⟨_, htrace, rfl⟩

/-- The recovery delay lies outside the slot's section (R153). -/
theorem byteIteration {slot : State → State} (hslot : ∀ s : State, s.RecordsSections (slot s))
    (s : State) : s.RecordsSections (State.byteIteration slot s) :=
  (hslot s).trans ⟨_, State.byteIteration_trace slot s, rfl⟩

theorem byteIterations {slot : State → State} (hslot : ∀ s : State, s.RecordsSections (slot s))
    (n : Nat) : ∀ s : State, s.RecordsSections (State.byteIterations slot n s) := by
  induction n with
  | zero => exact refl
  | succ n ih => exact fun s => (byteIteration hslot s).trans (ih _)

theorem operationBody {o : Operation} (ho : o ≠ .reset) (s : State) :
    s.RecordsSections (s.operationBody o) := by
  cases o with
  | reset => exact absurd rfl ho
  | readByte => exact byteIterations readSlot 8 s
  | writeByte => exact byteIterations (fun s => writeSlot s _) 8 s
  | configure => exact refl s

end State.RecordsSections

/-- Settles O45: a slot, or an operation made of slots, recovery delays, acceptance and completion. -/
theorem slotsAreCriticalSections : Obligations.SlotsAreCriticalSections := by
  unfold Obligations.SlotsAreCriticalSections
  intro s hb i hi
  obtain ⟨t, ht⟩ := exec_answers i s
  suffices hsections : s.RecordsSections t by
    obtain ⟨seg, htrace, hseg⟩ := hsections
    exact ⟨t, seg, ht, htrace, hseg⟩
  obtain ⟨bit, -, rfl⟩ | ⟨ignored, -, rfl⟩ | ⟨o, data, ho, -, rfl⟩ := exec_idle_eq_next hb ht
  · exact .writeSlot s bit
  · exact .readSlot s
  · have hreset : o ≠ .reset := by
      rintro rfl
      cases i with
      | reset d => exact hi d rfl
      | _ => cases ho
    exact (State.RecordsSections.accept s _).trans
      ((State.RecordsSections.operationBody hreset _).trans (.complete _))

end Sys2Proof.Machine
end

section
/-! The counts of R109, for every tolerance and environment: how many entries of each kind a micro-step
records depends on the micro-step and the bit only, so an operation's counts are those of its
microsequence. -/

namespace Sys2Proof.Machine

variable {s t : State}

/-- The kinds of entries that R109 counts. -/
inductive EntryKind where
  | delay
  | line
  | driveLow
  | sample
  | irqSuspend
  | irqResume

def EntryKind.covers : EntryKind → Event → Bool
  | .delay => isDelay
  | .line => isLine
  | .driveLow => (· == .line .driveLow)
  | .sample => isSample
  | .irqSuspend => (· == .irqSuspend)
  | .irqResume => (· == .irqResume)

/-- A micro-step that sends `bit` records an entry of the kind (R101 to R107). No kind looks at the
length of a delay or the level of a sample, so any stand here for those of the run. -/
def EntryKind.recordedBy (k : EntryKind) (bit : Bool) : MicroStep → Bool
  | .line m => k.covers (.line m)
  | .lineIfBit m => bit && k.covers (.line m)
  | .delay d => k.covers (.delay d 0)
  | .sample _ => k.covers (.sample .low)
  | .irqSuspend => k.covers .irqSuspend
  | .irqResume => k.covers .irqResume

/-- How many entries of the kind an iteration of a byte operation records (R150). -/
def EntryKind.inIteration (k : EntryKind) (slotSteps : List MicroStep) (bit : Bool) : Nat :=
  (slotSteps ++ [MicroStep.delay .recovery]).countP (k.recordedBy bit)

variable (k : EntryKind)

theorem EntryKind.covers_delay (d : Duration) (n : Nat) :
    k.covers (.delay d n) = k.covers (.delay d 0) := by
  cases k <;> rfl

theorem EntryKind.covers_sample (l : Level) : k.covers (.sample l) = k.covers (.sample .low) := by
  cases k <;> rfl

/-! ### Micro-steps -/

theorem count_concat (p : Event → Bool) (tr : Trace) (n : Nat) (e : Event) :
    count p (tr ++ [(n, e)]) = count p tr + if p e then 1 else 0 := by
  simp

theorem State.perform_count (s : State) (bit : Bool) (m : MicroStep) :
    count k.covers (s.perform bit m).trace =
      count k.covers s.trace + if k.recordedBy bit m then 1 else 0 := by
  have hsample : count k.covers (s.trace ++ [(s.now, .sample s.sampleLine.1)]) =
      count k.covers s.trace + if k.covers (.sample .low) then 1 else 0 := by
    rw [count_concat, k.covers_sample]
  cases m with
  | line d => exact count_concat ..
  | lineIfBit d =>
    cases bit with
    | false => rfl
    | true => exact count_concat ..
  | delay d => rw [State.perform, State.delay_trace, count_concat, k.covers_delay]; rfl
  | sample d =>
    cases d with
    | toPresence => rw [State.perform, State.samplePresence_trace, hsample]; rfl
    | toBit => rw [State.perform, State.sampleBit_trace, hsample]; rfl
  | irqSuspend => exact count_concat ..
  | irqResume => exact count_concat ..

theorem State.foldl_perform_count (bit : Bool) (ms : List MicroStep) : ∀ s : State,
    count k.covers (ms.foldl (fun s m => s.perform bit m) s).trace =
      count k.covers s.trace + ms.countP (k.recordedBy bit) := by
  induction ms with
  | nil => exact fun _ => rfl
  | cons m ms ih =>
    intro s
    rw [List.foldl_cons, ih, State.perform_count, List.countP_cons]
    omega

theorem State.writeSlot_count (s : State) (bit : Bool) : count k.covers (s.writeSlot bit).trace =
    count k.covers s.trace + writeSlotSteps.countP (k.recordedBy bit) :=
  State.foldl_perform_count k bit writeSlotSteps s

theorem State.readSlot_count (s : State) : count k.covers s.readSlot.trace =
    count k.covers s.trace + readSlotSteps.countP (k.recordedBy false) :=
  State.foldl_perform_count k false readSlotSteps s

theorem State.presenceSteps_count (s : State) : count k.covers s.presenceSteps.trace =
    count k.covers s.trace + (microsequence .reset).countP (k.recordedBy false) :=
  State.foldl_perform_count k false (microsequence .reset) s

/-! ### The byte operations -/

theorem State.byteIteration_count {slot : State → State} {slotSteps : List MicroStep} {bit : Bool}
    (hslot : count k.covers (slot s).trace =
      count k.covers s.trace + slotSteps.countP (k.recordedBy bit)) :
    count k.covers (State.byteIteration slot s).trace =
      count k.covers s.trace + k.inIteration slotSteps bit := by
  rw [State.byteIteration_trace, count_concat, hslot, EntryKind.inIteration, List.countP_append,
    k.covers_delay, List.countP_singleton, Nat.add_assoc]
  rfl

theorem State.byteIterations_readSlot_count (n : Nat) : ∀ s : State,
    count k.covers (State.byteIterations State.readSlot n s).trace =
      count k.covers s.trace + n * k.inIteration readSlotSteps false := by
  induction n with
  | zero => simp [State.byteIterations]
  | succ n ih =>
    intro s
    rw [State.byteIterations, ih, State.byteIteration_count k (s.readSlot_count k), Nat.succ_mul]
    omega

/-- From iteration `i` on a WRITE_BYTE sends the bits `i` to 7 of `sh` (R151). -/
theorem State.byteIterations_writeCurrentBit_count (n : Nat) : ∀ (s : State) (i : Nat), i + n = 8 →
    isByteOperation s.op = true → s.pos = BitVec.ofNat 7 (8 * i) →
    s.bitcnt = BitVec.ofNat 3 (min 7 i) →
      count k.covers (State.byteIterations State.writeCurrentBit n s).trace = count k.covers s.trace +
        ((List.range' i n).map fun j => k.inIteration writeSlotSteps (s.sh.getLsbD j)).sum := by
  induction n with
  | zero => simp [State.byteIterations]
  | succ n ih =>
    intro s i hi ho hp hbc
    obtain ⟨hp', hbc'⟩ := State.byteIteration_position State.writeCurrentBit s (i := i) (by omega)
      (by simpa) (by simpa)
    have hbit : bitAt s.sh s.bitcnt.toNat = s.sh.getLsbD i := by
      rw [bitAt_eq_getLsbD, hbc, BitVec.toNat_ofNat, show min 7 i % 2 ^ 3 = i by omega]
    have hcount : count k.covers (State.byteIteration State.writeCurrentBit s).trace =
        count k.covers s.trace + k.inIteration writeSlotSteps (s.sh.getLsbD i) :=
      State.byteIteration_count k (by rw [State.writeCurrentBit, hbit, State.writeSlot_count])
    rw [State.byteIterations, ih _ (i + 1) (by omega) (by simpa) hp' hbc', hcount,
      List.range'_succ, List.map_cons, List.sum_cons, State.byteIteration_sh,
      State.writeCurrentBit_sh, Nat.add_assoc]

/-- A 1 is sent with one more request of the line than a 0 (R109). -/
theorem EntryKind.sum_inIteration_write (bits : List Bool) :
    (bits.map (k.inIteration writeSlotSteps)).sum =
      bits.length * k.inIteration writeSlotSteps false +
        if k.covers (.line .float) then bits.count true else 0 := by
  have hone : k.inIteration writeSlotSteps true =
      k.inIteration writeSlotSteps false + if k.covers (.line .float) then 1 else 0 := by
    cases k <;> rfl
  induction bits with
  | nil => simp
  | cons b bits ih =>
    rw [List.map_cons, List.sum_cons, ih, List.length_cons, Nat.succ_mul]
    cases b with
    | false => simp; omega
    | true =>
      rw [hone, List.count_cons_self]
      split <;> omega

/-! ### The operations -/

/-- Acceptance and completion are of no kind that is counted. -/
theorem State.accept_count (s : State) (c : CommandWord) :
    count k.covers (s.accept c).trace = count k.covers s.trace := by
  rw [State.accept_trace, count_concat]
  cases k <;> rfl

theorem State.complete_count (s : State) :
    count k.covers s.complete.trace = count k.covers s.trace := by
  rw [State.complete_trace, count_concat]
  cases k <;> rfl

/-- How many entries of the kind an instruction records (R109). -/
def EntryKind.recordedByInstr (k : EntryKind) : Instr → Nat
  | .reset _ => (microsequence .reset).countP (k.recordedBy false)
  | .readByte _ => 8 * k.inIteration readSlotSteps false
  | .writeByte v => ((bitsOf v).map (k.inIteration writeSlotSteps)).sum
  | .configure _ => 0
  | .writeBit bit => writeSlotSteps.countP (k.recordedBy bit)
  | .readBit _ => readSlotSteps.countP (k.recordedBy false)

theorem State.writeByteBody_count (s : State) (v : Byte) :
    count k.covers ((s.accept (commandWord .writeByte v)).operationBody .writeByte).trace =
      count k.covers s.trace + k.recordedByInstr (.writeByte v) := by
  have hloop := State.byteIterations_writeCurrentBit_count k 8
    (s.accept (commandWord .writeByte v)) 0 rfl (by simp [isByteOperation]) rfl rfl
  have hsh : (s.accept (commandWord .writeByte v)).sh = v := by simp [shiftAtAcceptance]
  rw [State.operationBody, hloop, hsh, State.accept_count, EntryKind.recordedByInstr, bitsOf,
    List.map_map, List.range_eq_range']
  rfl

theorem exec_count {i : Instr} (hb : s.busy = false) (h : exec i s = .next t) :
    count k.covers t.trace = count k.covers s.trace + k.recordedByInstr i := by
  obtain ⟨bit, rfl, rfl⟩ | ⟨ignored, rfl, rfl⟩ | ⟨o, data, ho, hdata, rfl⟩ := exec_idle_eq_next hb h
  · exact s.writeSlot_count k bit
  · exact s.readSlot_count k
  · rw [State.complete_count]
    cases i with
    | reset d =>
      cases ho
      rw [State.operationBody, State.advance_trace, State.presenceSteps_count, State.accept_count,
        EntryKind.recordedByInstr]
    | readByte d =>
      cases ho
      rw [State.operationBody, State.byteIterations_readSlot_count, State.accept_count,
        EntryKind.recordedByInstr]
    | writeByte v =>
      cases ho
      cases hdata rfl
      exact s.writeByteBody_count k data
    | configure d =>
      cases ho
      rw [State.operationBody, State.accept_count, EntryKind.recordedByInstr, Nat.add_zero]
    | writeBit bit => cases ho
    | readBit ignored => cases ho

/-- Settles O46: each kind of entry is counted by its micro-steps. -/
theorem countsOfEachOperation : Obligations.CountsOfEachOperation := by
  unfold Obligations.CountsOfEachOperation
  intro s i hb
  obtain ⟨t, ht⟩ := exec_answers i s
  obtain ⟨-, seg, htrace, -, -⟩ := State.TraceGrowsTo.exec ht
  have hcount (k : EntryKind) : count k.covers seg = k.recordedByInstr i := by
    have := exec_count k hb ht
    rw [htrace, count_append] at this
    omega
  refine ⟨t, seg, ht, htrace, (hcount .delay).trans ?_, (hcount .line).trans ?_,
    (hcount .driveLow).trans ?_, (hcount .sample).trans ?_,
    (hcount .irqSuspend).trans ((hcount .irqResume).trans ?_).symm, (hcount .irqSuspend).trans ?_⟩
  all_goals
    cases i with
    | writeByte v => simp only [EntryKind.recordedByInstr, EntryKind.sum_inIteration_write]; rfl
    | writeBit bit => cases bit <;> rfl
    | _ => rfl

end Sys2Proof.Machine
end

section
/-! RESET (spec 41_reset_presence.md): the state in which it takes its sample, and the whole operation
by the level sampled there, for any environment. -/

namespace Sys2Proof.Machine

variable {s : State}

/-! ### The sample -/

/-- Settles O13: RESET's sample inverts the level, a read slot's inserts it at bit `bitcnt`. -/
theorem sampledLevelIsTheBit : Obligations.SampledLevelIsTheBit := by
  unfold Obligations.SampledLevelIsTheBit
  intro s bit
  refine ⟨presentOfLevel_eq_decide _, s.samplePresence_sh, s.sampleBit_present, fun i hi => ?_⟩
  rw [← bitOfLevel_eq_decide]
  exact getLsbD_setBit s.sh s.bitcnt _ hi

/-! ### The steps of RESET -/

/-- The state in which RESET takes its sample: after steps X0 to X3 (R120). -/
def State.beforePresence (s : State) : State :=
  (((s.setLine .driveLow).delay .resetPulse).setLine .float).delay .presenceWait

theorem State.presenceSteps_eq (s : State) :
    s.presenceSteps = s.beforePresence.samplePresence.delay .postPresence := rfl

theorem State.beforePresence_now (hn : s.tolerance = .nominal) :
    s.beforePresence.now = s.now + time s.cfg .resetPulse + time s.cfg .presenceWait := by
  simp [State.beforePresence, State.drawLength_nominal, hn]

theorem State.presenceSteps_now (hn : s.tolerance = .nominal) : s.presenceSteps.now =
    s.now + (time s.cfg .resetPulse + time s.cfg .presenceWait + time s.cfg .postPresence) := by
  simp [State.presenceSteps, State.drawLength_nominal, hn, Nat.add_assoc]

theorem State.presenceSteps_trace (hn : s.tolerance = .nominal) : s.presenceSteps.trace =
    s.trace ++ presenceTrace s.cfg s.now s.beforePresence.sampleLine.1 := by
  simp [State.presenceSteps_eq, State.beforePresence, State.drawLength_nominal, hn, presenceTrace,
    delayEntry]

theorem State.presenceSteps_present (s : State) :
    s.presenceSteps.present = decide (s.beforePresence.sampleLine.1 = .low) := by
  simp [State.presenceSteps_eq, presentOfLevel_eq_decide]

/-! ### The whole operation -/

/-- The state in which the RESET of the word with `data`, accepted in `s`, takes its sample. -/
def State.resetSample (s : State) (data : Byte) : State :=
  (s.accept (commandWord .reset data)).beforePresence

/-- RESET answers with the level `l` at its sample (R85, R121, R125), and leaves the position at the
end (R27). -/
theorem exec_reset {data : Byte} (hb : s.busy = false) {u : State} {l : Level}
    (hu : s.accept (commandWord .reset data) = u) (hl : u.beforePresence.sampleLine.1 = l) :
    exec (.reset data) s = .next { s with
      lineMode := .float, op := .reset, pos := 6, bitcnt := 0
      present := decide (l = .low), rsp := if l = .low then 0x01 else 0x00
      dly := 0, rspValid := true, irqSuspend := false, irqResume := false
      now := u.presenceSteps.now
      trace := u.presenceSteps.trace ++
        [(u.presenceSteps.now, .complete (if l = .low then 0x01 else 0x00))]
      env := u.beforePresence.sampleLine.2.env
      draws := u.beforePresence.sampleLine.2.draws + 1 } := by
  have hexec : exec (.reset data) s = .next (u.presenceSteps.advance 6).complete := by
    simp [exec, execReset, State.whenReady, hb, hu]
  have hpresent : u.presenceSteps.present = decide (l = .low) := hl ▸ u.presenceSteps_present
  have hop : u.presenceSteps.op = .reset := by simp [State.presenceSteps, ← hu]
  have hrsp : (u.presenceSteps.advance 6).response = if l = .low then 0x01 else 0x00 := by
    simp [State.response_eq, hop, hpresent]
  rw [hexec, Host.Outcome.next.injEq]
  ext : 1
  case trace => rw [State.complete_trace, hrsp]; rfl
  case rsp => exact hrsp
  case present => exact hpresent
  case now => rfl
  all_goals
    simp [State.presenceSteps_eq, State.beforePresence, ← hu, isByteOperation, hb,
      shiftAtAcceptance]

/-- In the nominal model the level at its sample decides the trace of RESET (R120). -/
theorem exec_reset_nominal {data : Byte} (hb : s.busy = false) (hn : s.tolerance = .nominal)
    {l : Level} (hl : (s.resetSample data).sampleLine.1 = l) :
    let rsp : Byte := if l = .low then 0x01 else 0x00
    let ends := s.now + (time s.cfg .resetPulse + time s.cfg .presenceWait + time s.cfg .postPresence)
    exec (.reset data) s = .next { s with
      lineMode := .float, op := .reset, pos := 6, bitcnt := 0, present := decide (l = .low)
      rsp := rsp, dly := 0, rspValid := true, irqSuspend := false, irqResume := false, now := ends
      trace := s.trace ++ (s.now, .accept (0x000 + data.setWidth 10)) ::
        (presenceTrace s.cfg s.now l ++ [(ends, .complete rsp)])
      env := (s.resetSample data).sampleLine.2.env
      draws := (s.resetSample data).sampleLine.2.draws + 1 } := by
  intro rsp ends
  have hnow : (s.accept (commandWord .reset data)).presenceSteps.now = ends :=
    State.presenceSteps_now hn
  have htrace : (s.accept (commandWord .reset data)).presenceSteps.trace = s.trace ++
      (s.now, .accept (0x000 + data.setWidth 10)) :: presenceTrace s.cfg s.now l := by
    rw [State.presenceSteps_trace (s := s.accept (commandWord .reset data)) hn, ← hl,
      ← commandWord_reset, State.accept_trace, List.append_assoc]
    rfl
  rw [exec_reset hb rfl hl, hnow, htrace, List.append_assoc]
  rfl

/-- Settles O32: the script's next answer is the level at the sample. -/
theorem resetOperation : Obligations.ResetOperation := by
  unfold Obligations.ResetOperation
  intro s data l rest hb hn he
  obtain ⟨hl, henv, hdraws⟩ := State.sampleLine_script (s := s.resetSample data) rfl he
  have hexec := exec_reset_nominal hb hn hl
  rw [henv, hdraws] at hexec
  simp only [decide_eq_true_eq]
  exact hexec

/-- Settles O33: the level is what the line shows at the sample. -/
theorem resetUnderEveryOracle : Obligations.ResetUnderEveryOracle := by
  unfold Obligations.ResetUnderEveryOracle
  intro s data hb hn
  exact ⟨_, _, exec_reset_nominal hb hn rfl, rfl, rfl, rfl, rfl, rfl, hb, rfl⟩

/-- A line that is high but for a pulse from `a` to `b` shows `LOW` at `t` exactly inside the pulse
(R58, R142). -/
theorem levelAt_pulse (a b t : Nat) :
    levelAt .high [(a, .low), (b, .high)] t = .low ↔ a ≤ t ∧ t < b := by
  by_cases hb : b ≤ t
  · simp [levelAt, hb]
  · by_cases ha : a ≤ t <;> simp [levelAt, ha, hb, Nat.not_le.mp hb]

/-- Settles O34: the sample instant is `resetPulse` and `presenceWait` after the acceptance. -/
theorem presencePulseMustCoverTheSample : Obligations.PresencePulseMustCoverTheSample := by
  unfold Obligations.PresencePulseMustCoverTheSample
  intro s data a b hb hn he
  have hinstant : (s.resetSample data).now =
      s.now + time s.cfg .resetPulse + time s.cfg .presenceWait := State.beforePresence_now hn
  obtain ⟨hl, -, -⟩ := State.sampleLine_timed (s := s.resetSample data) rfl he
  refine ⟨_, exec_reset_nominal hb hn hl, ?_⟩
  rw [hinstant, decide_eq_true_eq]
  exact levelAt_pulse _ _ _

end Sys2Proof.Machine
end

section
/-! An environment that always answers the same level, no device or a line stuck low, for any tolerance
(spec 41_reset_presence.md R124, R126; 44_byte_composer.md R157; 20_memory.md R59). -/

namespace Sys2Proof.Machine

variable {s : State}

/-! ### READ_BYTE -/

/-- Every sample from a released line with a constant environment shows its level, and leaves it
(R59). -/
theorem State.sampleLine_constant {l : Level} (hm : s.lineMode = .float) (he : s.env = .timed l []) :
    s.sampleLine.1 = l ∧ s.sampleLine.2.env = .timed l [] := by
  obtain ⟨hlevel, henv, -⟩ := State.sampleLine_timed hm he
  exact ⟨hlevel, henv.trans he⟩

/-- A read slot stores the level of a constant environment, and leaves it. -/
theorem State.readSlot_constant {l : Level} (he : s.env = .timed l []) :
    s.readSlot.env = .timed l [] ∧ s.readSlot.sh = setBit s.sh s.bitcnt.toNat (bitOfLevel l) := by
  obtain ⟨hl, henv⟩ := State.sampleLine_constant (s := s.beforeSample) rfl he
  rw [State.readSlot_env, State.readSlot_sh, hl, henv]
  exact ⟨rfl, rfl⟩

/-- A byte whose bits are all a level's. -/
theorem eq_of_getLsbD_eq_bitOfLevel {v : Byte} {l : Level}
    (h : ∀ j < 8, v.getLsbD j = bitOfLevel l) : v = if l = .low then 0x00 else 0xFF := by
  refine BitVec.eq_of_getLsbD_eq fun j hj => (h j hj).trans ?_
  cases l with
  | low => simp [bitOfLevel]
  | high => interval_cases j <;> rfl

/-- From iteration `i` on, with the bits below `i` stored, every bit of `sh` becomes the level's. -/
theorem State.byteIterations_readSlot_constant {l : Level} (n : Nat) : ∀ (s : State) (i : Nat),
    i + n = 8 → isByteOperation s.op = true → s.pos = BitVec.ofNat 7 (8 * i) →
    s.bitcnt = BitVec.ofNat 3 (min 7 i) → s.env = .timed l [] →
    (∀ j < i, s.sh.getLsbD j = bitOfLevel l) →
      (State.byteIterations State.readSlot n s).env = .timed l [] ∧
      ∀ j < 8, (State.byteIterations State.readSlot n s).sh.getLsbD j = bitOfLevel l := by
  induction n with
  | zero =>
    intro s i hi _ _ _ he hsh
    obtain rfl : i = 8 := hi
    exact ⟨he, hsh⟩
  | succ n ih =>
    intro s i hi ho hp hbc he hsh
    obtain ⟨hp', hbc'⟩ := State.byteIteration_position State.readSlot s (i := i) (by omega)
      (by simpa) (by simpa)
    obtain ⟨henv, hstored⟩ := State.readSlot_constant he
    have hbit : s.bitcnt.toNat = i := by rw [hbc, BitVec.toNat_ofNat]; omega
    refine ih _ (i + 1) (by omega) (by simpa) hp' hbc' (by simpa using henv) fun j hj => ?_
    rw [State.byteIteration_sh, hstored, getLsbD_setBit _ _ _ (by omega), hbit]
    by_cases hlast : j = i
    · rw [if_pos hlast]
    · rw [if_neg hlast]
      exact hsh j (by omega)

/-! ### The statement -/

/-- Settles O35: RESET's sample and each of READ_BYTE's eight show the constant level. -/
theorem noDeviceAndStuckLine : Obligations.NoDeviceAndStuckLine := by
  unfold Obligations.NoDeviceAndStuckLine
  intro s data l hb he
  constructor
  · obtain ⟨hl, henv⟩ := State.sampleLine_constant (s := s.resetSample data) rfl he
    exact ⟨_, exec_reset hb rfl hl, rfl, rfl, rfl, hb, henv.trans he.symm⟩
  · obtain ⟨henv, hbits⟩ := State.byteIterations_readSlot_constant 8
      (s.accept (commandWord .readByte data)) 0 rfl (by simp [isByteOperation]) rfl rfl he (by simp)
    refine ⟨_, exec_of_encode_command (c := commandWord .readByte data) rfl hb, ?_, ?_, rfl, ?_⟩
    · rw [State.complete_rsp, State.response_eq, State.operationBody_op, State.accept_op,
        operationOf_commandWord]
      exact eq_of_getLsbD_eq_bitOfLevel hbits
    · simp
    · simpa [State.operationBody] using henv.trans he.symm

end Sys2Proof.Machine
end

section
/-! WRITE_BIT (spec 42_write_bit_slot.md): the whole slot in the nominal model, and what an observer of
the line finds in its trace. -/

namespace Sys2Proof.Machine

/-! ### The whole slot -/

/-- In the nominal model a slot for a 1 and one for a 0 differ in the trace only (R130, R131, R133). -/
theorem State.writeSlot_nominal {s : State} (hn : s.tolerance = .nominal) (bit : Bool) :
    s.writeSlot bit = { s with
      lineMode := .float, ie := true, dly := 0, rspValid := false, irqSuspend := false
      irqResume := true, now := s.now + writeSlotTime s.cfg
      trace := s.trace ++ writeSlotTrace s.cfg s.now bit, draws := s.draws + 2 } := by
  ext : 1
  case now => exact s.writeSlot_now bit hn
  case trace => exact s.writeSlot_trace bit hn
  all_goals simp

/-- Settles O36: WRITE_BIT is the write slot, which has no acceptance and no completion. -/
theorem writeBitOperation : Obligations.WriteBitOperation := by
  unfold Obligations.WriteBitOperation
  intro s bit hn
  exact congrArg Host.Outcome.next (State.writeSlot_nominal hn bit)

/-! ### What an observer finds -/

/-- A write slot drives the line low once: for a 1 until `LINE_IF_BIT` releases it, for a 0 until the
end of the slot (R131, R132). -/
theorem lowIntervals_writeSlotTrace_append (c : TimingConfig) (t : Nat) (bit : Bool) (rest : Trace) :
    lowIntervals none (writeSlotTrace c t bit ++ rest) =
      (t, t + if bit then time c .slotInit else time c .slotInit + time c .hold) ::
        lowIntervals none rest := by
  cases bit with
  | true => rfl
  | false =>
    rw [if_neg Bool.false_ne_true, ← Nat.add_assoc]
    rfl

/-- An observer of a write slot finds the line driven exactly within that interval (R132). -/
theorem drivenAt_writeSlotTrace_iff (c : TimingConfig) (t : Nat) (bit : Bool) (at' : Nat) :
    drivenAt (writeSlotTrace c t bit) at' = true ↔
      t ≤ at' ∧ at' < t + if bit then time c .slotInit else time c .slotInit + time c .hold := by
  rw [drivenAt, ← List.append_nil (writeSlotTrace c t bit), lowIntervals_writeSlotTrace_append]
  simp [lowIntervals]

/-- Settles O39: the hold window lies past the driven-low interval of a 1 and within that of a 0, the
slot-init pulse within both. -/
theorem observerRecoversTheBit : Obligations.ObserverRecoversTheBit := by
  unfold Obligations.ObserverRecoversTheBit
  intro s bit hn
  refine ⟨s.writeSlot bit, writeSlotTrace s.cfg s.now bit, rfl, s.writeSlot_trace bit hn,
    fun at' hlo hhi => ?_, fun at' hlo hhi => ?_⟩
  · rw [Bool.eq_iff_iff, drivenAt_writeSlotTrace_iff]
    cases bit with
    | true => simp only [↓reduceIte, Bool.not_true, Bool.false_eq_true, iff_false]; omega
    | false => simp only [Bool.false_eq_true, ↓reduceIte, Bool.not_false, iff_true]; omega
  · rw [drivenAt_writeSlotTrace_iff]
    cases bit with
    | true => exact ⟨hlo, hhi⟩
    | false => exact ⟨hlo, by rw [if_neg Bool.false_ne_true]; omega⟩

end Sys2Proof.Machine
end

section
/-! READ_BIT (spec 43_read_bit_slot.md): the whole slot in the nominal model by the level sampled,
for any environment, and the instant of its one sample. -/

namespace Sys2Proof.Machine

variable {s : State}

/-! ### The sample -/

/-- The sample is taken at one instant, the same whatever the environment does (R142). -/
theorem State.beforeSample_now (hn : s.tolerance = .nominal) :
    s.beforeSample.now = s.now + time s.cfg .readInit + time s.cfg .readSample := by
  simp [State.beforeSample, State.drawLength_nominal, hn]

/-- The level sampled becomes bit `bitcnt` of `sh`, uninverted; the other bits stay (R141). -/
theorem State.readSlot_getLsbD_sh_eq (s : State) {i : Nat} (hi : i < 8) :
    s.readSlot.sh.getLsbD i =
      if i = s.bitcnt.toNat then decide (s.beforeSample.sampleLine.1 = .high)
      else s.sh.getLsbD i := by
  rw [State.readSlot_sh, ← bitOfLevel_eq_decide]
  exact getLsbD_setBit s.sh s.bitcnt _ hi

/-! ### The whole slot -/

/-- In the nominal model the level sampled decides the bit stored and one entry of the trace
(R140, R144, R145). -/
theorem State.readSlot_nominal (hn : s.tolerance = .nominal) :
    s.readSlot = { s with
      lineMode := .float, ie := true, sh := s.readSlot.sh, dly := 0, rspValid := false
      irqSuspend := false, irqResume := true, now := s.now + readSlotTime s.cfg
      trace := s.trace ++ readSlotTrace s.cfg s.now s.beforeSample.sampleLine.1
      env := s.beforeSample.sampleLine.2.env, draws := s.beforeSample.sampleLine.2.draws } := by
  ext : 1
  case now => exact s.readSlot_now hn
  case trace => exact s.readSlot_trace hn
  case sh => rfl
  all_goals simp

/-- Settles O37: the script's next answer is the level at the sample. -/
theorem readBitOperation : Obligations.ReadBitOperation := by
  unfold Obligations.ReadBitOperation
  intro s ignored l rest hn he
  obtain ⟨hl, henv, hdraws⟩ := State.sampleLine_script (s := s.beforeSample) rfl he
  have hslot := State.readSlot_nominal hn
  rw [hl, henv, hdraws] at hslot
  exact ⟨s.readSlot.sh, fun i hi => hl ▸ s.readSlot_getLsbD_sh_eq hi,
    congrArg Host.Outcome.next hslot⟩

/-- Settles O38: the one sample shows the change if its time has come at the sample instant. -/
theorem readSlotBoundary : Obligations.ReadSlotBoundary := by
  unfold Obligations.ReadSlotBoundary
  intro s ignored before after t0 hn he instant
  have hl : s.beforeSample.sampleLine.1 = if t0 ≤ instant then after else before := by
    obtain ⟨hlevel, -, -⟩ := State.sampleLine_timed (s := s.beforeSample) rfl he
    rw [hlevel, State.beforeSample_now hn]
    exact levelAt_concat before after [] t0 instant
  refine ⟨s.readSlot, rfl, ?_, ?_⟩
  · rw [s.readSlot_trace hn, hl]
  · rw [s.readSlot_getLsbD_sh_eq s.bitcnt.isLt, if_pos rfl, hl]

end Sys2Proof.Machine
end

section
/-! WRITE_BYTE and READ_BYTE (spec 44_byte_composer.md): the loop of the `byte_composer` by the bits it
sends or the levels it samples, both whole operations, and what a byte is on the line. -/

namespace Sys2Proof.Machine

variable {s : State} {i : Nat}

/-! ### Iteration `i` of the loop -/

/-- A byte operation is about to begin iteration `i`; 8 is the end of the loop (R26, R27, R150). -/
structure State.AtIteration (s : State) (i : Nat) : Prop where
  byteOperation : isByteOperation s.op = true
  pos : s.pos = BitVec.ofNat 7 (8 * i)
  bitcnt : s.bitcnt = BitVec.ofNat 3 (min 7 i)

namespace State.AtIteration

theorem accept (s : State) {c : CommandWord} (hc : isByteOperation (operationOf (commandOp c)) = true) :
    (s.accept c).AtIteration 0 := ⟨hc, rfl, rfl⟩

theorem bitcnt_toNat (h : s.AtIteration i) (hi : i < 8) : s.bitcnt.toNat = i := by
  rw [h.bitcnt, BitVec.toNat_ofNat]
  omega

theorem next {slot : State → State} (h : s.AtIteration i) (hi : i < 8) (hop : (slot s).op = s.op)
    (hpos : (slot s).pos = s.pos) : (State.byteIteration slot s).AtIteration (i + 1) := by
  obtain ⟨hp, hbc⟩ := State.byteIteration_position slot s hi (hop ▸ h.byteOperation) (hpos ▸ h.pos)
  exact ⟨by rw [State.byteIteration_op, hop, h.byteOperation], hp, hbc⟩

end State.AtIteration

/-- An accepted byte operation ends at position 64 with `bitcnt` 7 (R26, R27). -/
theorem State.operationBody_accept_ends {o : Operation} (s : State) {c : CommandWord}
    (ho : operationOf (commandOp c) = o) (hbyte : isByteOperation o = true) :
    ((s.accept c).operationBody o).pos = 64 ∧ ((s.accept c).operationBody o).bitcnt = 7 := by
  have hends {slot : State → State} (hop : ∀ s, (slot s).op = s.op)
      (hpos : ∀ s, (slot s).pos = s.pos) : (State.byteIterations slot 8 (s.accept c)).pos = 64 ∧
        (State.byteIterations slot 8 (s.accept c)).bitcnt = 7 := by
    obtain ⟨hp, hbc, -⟩ := State.byteIterations_position slot hop hpos 8 (s.accept c) 0 rfl
      (by rwa [State.accept_op, ho]) rfl rfl
    exact ⟨hp, hbc⟩
  cases o with
  | readByte => exact hends State.readSlot_op State.readSlot_pos
  | writeByte => exact hends State.writeCurrentBit_op State.writeCurrentBit_pos
  | reset => cases hbyte
  | configure => cases hbyte

/-! ### Time and trace of an iteration, in the nominal model -/

theorem State.byteIteration_trace_nominal {slot : State → State}
    (hn : (slot s).tolerance = .nominal) : (State.byteIteration slot s).trace =
      (slot s).trace ++ [delayEntry (slot s).cfg (slot s).now .recovery] := by
  rw [State.byteIteration_trace, State.drawLength_nominal hn, delayEntry]

theorem State.byteIteration_write_now (hn : s.tolerance = .nominal) :
    (State.byteIteration State.writeCurrentBit s).now = s.now + writePeriod s.cfg := by
  rw [State.byteIteration_now, State.drawLength_nominal (by simpa), State.writeCurrentBit_cfg,
    State.writeCurrentBit, s.writeSlot_now _ hn, writePeriod, Nat.add_assoc]

theorem State.byteIteration_read_now (hn : s.tolerance = .nominal) :
    (State.byteIteration State.readSlot s).now = s.now + readPeriod s.cfg := by
  rw [State.byteIteration_now, State.drawLength_nominal (by simpa), State.readSlot_cfg,
    s.readSlot_now hn, readPeriod, Nat.add_assoc]

/-! ### The loop of WRITE_BYTE -/

/-- From iteration `i` on, in the nominal model, the bits `i` to 7 of `sh` are sent, each in one period
(R151, R152, R231). -/
theorem State.byteIterations_write_nominal (n : Nat) : ∀ (s : State) (i : Nat), i + n = 8 →
    s.AtIteration i → s.tolerance = .nominal →
      (State.byteIterations State.writeCurrentBit n s).now = s.now + n * writePeriod s.cfg ∧
      (State.byteIterations State.writeCurrentBit n s).draws = s.draws + 3 * n ∧
      (State.byteIterations State.writeCurrentBit n s).trace = s.trace ++
        writeSlotsTrace s.cfg s.now ((List.range' i n).map s.sh.getLsbD) := by
  induction n with
  | zero => simp [State.byteIterations, writeSlotsTrace]
  | succ n ih =>
    intro s i hi hat hn
    have hbit : bitAt s.sh s.bitcnt.toNat = s.sh.getLsbD i := by
      rw [hat.bitcnt_toNat (by omega), bitAt_eq_getLsbD]
    have htrace : (State.byteIteration State.writeCurrentBit s).trace = s.trace ++
        writeSlotTrace s.cfg s.now (s.sh.getLsbD i) ++
          [delayEntry s.cfg (s.now + writeSlotTime s.cfg) .recovery] := by
      rw [State.byteIteration_trace_nominal (by simpa), State.writeCurrentBit_cfg,
        State.writeCurrentBit, s.writeSlot_now _ hn, s.writeSlot_trace _ hn, hbit]
    obtain ⟨hnow', hdraws', htrace'⟩ :=
      ih (State.byteIteration State.writeCurrentBit s) (i + 1) (by omega)
        (hat.next (by omega) (by simp) (by simp)) (by simpa)
    refine ⟨?_, ?_, ?_⟩
    · rw [State.byteIterations, hnow', State.byteIteration_write_now hn]
      simp only [State.byteIteration_cfg, State.writeCurrentBit_cfg]
      ring
    · rw [State.byteIterations, hdraws', State.byteIteration_draws, State.writeCurrentBit_draws]
      omega
    · rw [State.byteIterations, htrace', htrace, State.byteIteration_write_now hn]
      simp [List.range'_succ, writeSlotsTrace]

/-- From an acceptance of WRITE_BYTE to its completion, in the nominal model (R151, R158). -/
theorem State.operationBody_writeByte_nominal {u : State} {value : Byte} (hn : s.tolerance = .nominal)
    (hu : (s.accept (commandWord .writeByte value)).operationBody .writeByte = u) :
    u.now = s.now + 8 * writePeriod s.cfg ∧ u.draws = s.draws + 24 ∧
      u.trace = s.trace ++ (s.now, .accept (0x200 + value.setWidth 10)) ::
        writeSlotsTrace s.cfg s.now (bitsOf value) := by
  have hat : (s.accept (commandWord .writeByte value)).AtIteration 0 :=
    .accept s (by rw [operationOf_commandWord]; rfl)
  have hsh : (s.accept (commandWord .writeByte value)).sh = value := by simp [shiftAtAcceptance]
  obtain ⟨hnow, hdraws, htrace⟩ := State.byteIterations_write_nominal 8 _ 0 rfl hat hn
  refine ⟨hu ▸ hnow, hu ▸ hdraws, ?_⟩
  rw [← hu, State.operationBody, htrace, hsh, State.accept_trace, commandWord_writeByte,
    List.append_assoc, bitsOf, List.range_eq_range']
  rfl

/-- Settles O40: the loop sends the bits of `sh`, which holds the value from acceptance on. -/
theorem writeByteOperation : Obligations.WriteByteOperation := by
  unfold Obligations.WriteByteOperation
  intro s value hb hn ends
  obtain ⟨u, hu⟩ : ∃ u, (s.accept (commandWord .writeByte value)).operationBody .writeByte = u :=
    ⟨_, rfl⟩
  have hexec : exec (.writeByte value) s = .next u.complete := by
    rw [exec_of_encode_command (c := commandWord .writeByte value) rfl hb, operationOf_commandWord, hu]
  have hrsp : u.response = 0x00 := by simp [State.response_eq, ← hu]
  obtain ⟨hpos, hbitcnt⟩ :=
    State.operationBody_accept_ends s (operationOf_commandWord .writeByte value) rfl
  obtain ⟨hnow, hdraws, htrace⟩ := State.operationBody_writeByte_nominal hn hu
  have henv : u.env = s.env := hu ▸ State.byteIterations_keeps _ (·.env) (by simp) 8 _
  rw [hexec, Host.Outcome.next.injEq]
  ext : 1
  case pos => exact hu ▸ hpos
  case bitcnt => exact hu ▸ hbitcnt
  case now => exact hnow
  case draws => exact hdraws
  case env => exact henv
  case rsp => exact hrsp
  case trace =>
    rw [State.complete_trace, hrsp, hnow, htrace, List.append_assoc]
    rfl
  all_goals
    simp [← hu, isByteOperation, hb, shiftAtAcceptance, State.operationBody_sh,
      State.operationBody_present]

/-- The write slots of `n` bits from the `i`-th on drive the line low once each, at the start of their
period (R131, R154, R231). -/
theorem lowIntervals_writeSlotsTrace_append (c : TimingConfig) (t : Nat) (bit : Nat → Bool)
    (rest : Trace) (n : Nat) : ∀ i : Nat,
    lowIntervals none (writeSlotsTrace c (t + i * writePeriod c) ((List.range' i n).map bit) ++ rest) =
      ((List.range' i n).map fun j => (t + j * writePeriod c, t + j * writePeriod c +
        if bit j then time c .slotInit else time c .slotInit + time c .hold)) ++
          lowIntervals none rest := by
  induction n with
  | zero => exact fun _ => rfl
  | succ n ih =>
    intro i
    have hnext : t + i * writePeriod c + writePeriod c = t + (i + 1) * writePeriod c := by
      rw [Nat.succ_mul, Nat.add_assoc]
    rw [List.range'_succ, List.map_cons, List.map_cons, writeSlotsTrace, List.append_assoc,
      lowIntervals_writeSlotTrace_append, hnext, List.cons_append, List.cons_append, ← ih]
    rfl

/-- Settles O41: neither `ACCEPT`, `COMPLETE` nor a recovery delay touches the line, so the intervals
are those of the eight slots. -/
theorem writeByteEncodesItsBits : Obligations.WriteByteEncodesItsBits := by
  unfold Obligations.WriteByteEncodesItsBits
  intro s value hb hn
  refine ⟨_, _, writeByteOperation s value hb hn, rfl, ?_⟩
  have hslots (rest : Trace) :=
    lowIntervals_writeSlotsTrace_append s.cfg s.now value.getLsbD rest 8 0
  rw [Nat.zero_mul, Nat.add_zero, ← List.range_eq_range'] at hslots
  exact (hslots _).trans (List.append_nil _)

/-! ### The levels that a READ_BYTE samples -/

/-- The levels that the next `n` iterations of a READ_BYTE sample. -/
def State.sampledLevels : Nat → State → List Level
  | 0, _ => []
  | n + 1, s =>
    s.beforeSample.sampleLine.1 :: State.sampledLevels n (State.byteIteration State.readSlot s)

theorem State.sampledLevels_length (n : Nat) : ∀ s, (State.sampledLevels n s).length = n := by
  induction n with
  | zero => exact fun _ => rfl
  | succ n ih => exact fun s => congrArg (· + 1) (ih _)

/-- A script is sampled in its order, one answer for each slot, for any tolerance (R58, R155). -/
theorem State.byteIterations_read_script (rest : List Level) (levels : List Level) : ∀ s : State,
    s.env = .script (levels ++ rest) →
      State.sampledLevels levels.length s = levels ∧
      (State.byteIterations State.readSlot levels.length s).env = .script rest ∧
      (State.byteIterations State.readSlot levels.length s).draws = s.draws + 3 * levels.length := by
  induction levels with
  | nil => exact fun s he => ⟨rfl, he, rfl⟩
  | cons l levels ih =>
    intro s he
    obtain ⟨hl, henv, hdraws⟩ := State.sampleLine_script (s := s.beforeSample) rfl he
    obtain ⟨hlevels, henv', hdraws'⟩ := ih (State.byteIteration State.readSlot s)
      (by rw [State.byteIteration_env, State.readSlot_env]; exact henv)
    refine ⟨congrArg₂ _ hl hlevels, henv', hdraws'.trans ?_⟩
    rw [State.byteIteration_draws, State.readSlot_draws, hdraws, List.length_cons]
    change s.draws + 2 + 1 + 3 * levels.length = _
    omega

/-- In the nominal model the levels sampled decide the trace of the loop (R155, R231). -/
theorem State.byteIterations_read_nominal (n : Nat) : ∀ s : State, s.tolerance = .nominal →
    (State.byteIterations State.readSlot n s).now = s.now + n * readPeriod s.cfg ∧
    (State.byteIterations State.readSlot n s).trace =
      s.trace ++ readSlotsTrace s.cfg s.now (State.sampledLevels n s) := by
  induction n with
  | zero => simp [State.byteIterations, State.sampledLevels, readSlotsTrace]
  | succ n ih =>
    intro s hn
    have htrace : (State.byteIteration State.readSlot s).trace = s.trace ++
        readSlotTrace s.cfg s.now s.beforeSample.sampleLine.1 ++
          [delayEntry s.cfg (s.now + readSlotTime s.cfg) .recovery] := by
      rw [State.byteIteration_trace_nominal (by simpa), State.readSlot_cfg, s.readSlot_now hn,
        s.readSlot_trace hn]
    obtain ⟨hnow', htrace'⟩ := ih (State.byteIteration State.readSlot s) (by simpa)
    refine ⟨?_, ?_⟩
    · rw [State.byteIterations, hnow', State.byteIteration_read_now hn, State.byteIteration_cfg,
        State.readSlot_cfg]
      ring
    · rw [State.byteIterations, htrace', htrace, State.byteIteration_read_now hn]
      simp [State.sampledLevels, readSlotsTrace]

/-! ### The byte that the levels are -/

theorem testBit_sumOfLevels_cons_zero (l : Level) (levels : List Level) :
    (sumOfLevels (l :: levels)).testBit 0 = bitOfLevel l := by
  rw [sumOfLevels, Nat.add_comm, ← Nat.bit_val, Nat.testBit_bit_zero]

theorem testBit_sumOfLevels_cons_succ (l : Level) (levels : List Level) (j : Nat) :
    (sumOfLevels (l :: levels)).testBit (j + 1) = (sumOfLevels levels).testBit j := by
  rw [sumOfLevels, Nat.add_comm, ← Nat.bit_val, Nat.testBit_bit_succ]

/-- From iteration `i` on the levels sampled become the bits `i` to 7 of `sh`, for any tolerance and
environment (R141, R156). -/
theorem State.byteIterations_read_sh (n : Nat) : ∀ (s : State) (i : Nat), i + n = 8 →
    s.AtIteration i → ∀ j < 8, (State.byteIterations State.readSlot n s).sh.getLsbD j =
      if j < i then s.sh.getLsbD j else (sumOfLevels (State.sampledLevels n s)).testBit (j - i) := by
  induction n with
  | zero =>
    intro s i hi _ j hj
    rw [if_pos (by omega)]
    rfl
  | succ n ih =>
    intro s i hi hat j hj
    rw [State.byteIterations, ih _ (i + 1) (by omega) (hat.next (by omega) (by simp) (by simp)) j hj,
      State.byteIteration_sh, State.readSlot_sh, getLsbD_setBit _ _ _ hj,
      hat.bitcnt_toNat (by omega), State.sampledLevels]
    obtain hlt | rfl | hgt := Nat.lt_trichotomy j i
    · rw [if_pos (by omega), if_neg (by omega), if_pos hlt]
    · rw [if_pos (by omega), if_pos rfl, if_neg (by omega), Nat.sub_self,
        testBit_sumOfLevels_cons_zero]
    · rw [if_neg (by omega), if_neg (by omega), show j - i = j - (i + 1) + 1 by omega,
        testBit_sumOfLevels_cons_succ]

/-- The levels of the lower `n` bits of a number, bit 0 first, stand for those bits (R88). -/
theorem sumOfLevels_levelOfBit (n : Nat) : ∀ v : Nat,
    sumOfLevels ((List.range n).map fun i => levelOfBit (v.testBit i)) = v % 2 ^ n := by
  have hbit (b : Bool) : bitOfLevel (levelOfBit b) = b := by cases b <;> rfl
  induction n with
  | zero => exact fun v => (Nat.mod_one v).symm
  | succ n ih =>
    intro v
    rw [List.range_succ_eq_map, List.map_cons, List.map_map, sumOfLevels, hbit, Nat.toNat_testBit,
      Nat.pow_succ', Nat.mod_mul, ← ih (v / 2), Nat.pow_zero, Nat.div_one]
    simp only [Function.comp_def, Nat.testBit_succ]

/-- A byte sent as levels is that byte (R158). -/
theorem ofNat_sumOfLevels_bitsOf (b : Byte) :
    BitVec.ofNat 8 (sumOfLevels ((bitsOf b).map levelOfBit)) = b := by
  have hsum : sumOfLevels ((bitsOf b).map levelOfBit) = b.toNat % 2 ^ 8 := by
    rw [bitsOf, List.map_map]
    exact sumOfLevels_levelOfBit 8 b.toNat
  rw [hsum, Nat.mod_eq_of_lt b.isLt, BitVec.ofNat_toNat, BitVec.setWidth_eq]

/-! ### READ_BYTE -/

/-- The levels that the READ_BYTE of the word with `data`, accepted in `s`, samples. -/
def State.readByteLevels (s : State) (data : Byte) : List Level :=
  State.sampledLevels 8 (s.accept (commandWord .readByte data))

/-- READ_BYTE answers with the byte that its samples are (R85, R156), and leaves the position at the
end (R27). -/
theorem exec_readByte {data : Byte} (hb : s.busy = false) {u : State}
    (hu : (s.accept (commandWord .readByte data)).operationBody .readByte = u) {result : Byte}
    (hresult : BitVec.ofNat 8 (sumOfLevels (s.readByteLevels data)) = result) :
    exec (.readByte data) s = .next { s with
      lineMode := .float, ie := true, op := .readByte, pos := 64, bitcnt := 7, sh := result
      rsp := result, dly := 0, rspValid := true, irqSuspend := false, irqResume := false
      now := u.now, trace := u.trace ++ [(u.now, .complete result)], env := u.env
      draws := u.draws } := by
  have hexec : exec (.readByte data) s = .next u.complete := by
    rw [exec_of_encode_command (c := commandWord .readByte data) rfl hb, operationOf_commandWord, hu]
  have hsh : u.sh = result := by
    refine BitVec.eq_of_getLsbD_eq fun j hj => ?_
    rw [← hresult, BitVec.getLsbD_ofNat, decide_eq_true hj, Bool.true_and, ← hu]
    exact State.byteIterations_read_sh 8 _ 0 rfl
      (.accept s (by rw [operationOf_commandWord]; rfl)) j hj
  have hrsp : u.response = result := by
    have hop : u.op = .readByte := by simp [← hu]
    rw [State.response_eq, hop, ← hsh]
  obtain ⟨hpos, hbitcnt⟩ :=
    State.operationBody_accept_ends s (operationOf_commandWord .readByte data) rfl
  rw [hexec, Host.Outcome.next.injEq]
  ext : 1
  case pos => exact hu ▸ hpos
  case bitcnt => exact hu ▸ hbitcnt
  case sh => exact hsh
  case rsp => exact hrsp
  case now => rfl
  case env => rfl
  case draws => rfl
  case trace => rw [State.complete_trace, hrsp]
  all_goals simp [← hu, isByteOperation, hb, State.operationBody_present]

/-- In the nominal model the levels that it samples decide the trace of READ_BYTE (R155). -/
theorem exec_readByte_nominal {data : Byte} (hb : s.busy = false) (hn : s.tolerance = .nominal)
    {u : State} (hu : (s.accept (commandWord .readByte data)).operationBody .readByte = u)
    {levels : List Level} (hlevels : s.readByteLevels data = levels) :
    let result : Byte := BitVec.ofNat 8 (sumOfLevels levels)
    let ends := s.now + 8 * (time s.cfg .readInit + time s.cfg .readSample + time s.cfg .recovery)
    exec (.readByte data) s = .next { s with
      lineMode := .float, ie := true, op := .readByte, pos := 64, bitcnt := 7, sh := result
      rsp := result, dly := 0, rspValid := true, irqSuspend := false, irqResume := false
      now := ends
      trace := s.trace ++ (s.now, .accept (0x100 + data.setWidth 10)) ::
        (readSlotsTrace s.cfg s.now levels ++ [(ends, .complete result)])
      env := u.env, draws := u.draws } := by
  intro result ends
  obtain ⟨hnow, htrace⟩ :=
    State.byteIterations_read_nominal 8 (s.accept (commandWord .readByte data)) hn
  have hends : u.now = ends := hu ▸ hnow
  have hrecorded : u.trace = s.trace ++ (s.now, .accept (0x100 + data.setWidth 10)) ::
      readSlotsTrace s.cfg s.now levels := by
    rw [← hu, State.operationBody, htrace, ← hlevels, ← commandWord_readByte, State.accept_trace,
      List.append_assoc]
    rfl
  rw [exec_readByte hb hu (congrArg (BitVec.ofNat 8 <| sumOfLevels ·) hlevels), hends,
    hrecorded, List.append_assoc]
  rfl

/-- Settles O42: the levels sampled are the script's next eight answers. -/
theorem readByteOperation : Obligations.ReadByteOperation := by
  unfold Obligations.ReadByteOperation
  intro s data levels rest hb hn hlen he
  obtain ⟨hlevels, henv, hdraws⟩ := State.byteIterations_read_script rest levels
    (s.accept (commandWord .readByte data)) he
  rw [hlen] at hlevels henv hdraws
  have hexec := exec_readByte_nominal hb hn rfl hlevels
  rw [State.operationBody, henv, hdraws] at hexec
  exact hexec

/-- Settles O43: the levels are what the line shows at the eight samples. -/
theorem readByteUnderEveryOracle : Obligations.ReadByteUnderEveryOracle := by
  unfold Obligations.ReadByteUnderEveryOracle
  intro s data hb hn
  exact ⟨s.readByteLevels data, _, State.sampledLevels_length 8 _,
    exec_readByte_nominal hb hn rfl rfl, rfl, rfl, rfl, rfl⟩

/-- Settles O44: the script's answers are sampled in their order, and they are the byte. -/
theorem readByteReturnsTheByteSent : Obligations.ReadByteReturnsTheByteSent := by
  unfold Obligations.ReadByteReturnsTheByteSent
  intro s data b rest hb he
  obtain ⟨hlevels, henv, -⟩ := State.byteIterations_read_script rest ((bitsOf b).map levelOfBit)
    (s.accept (commandWord .readByte data)) he
  have hresult : BitVec.ofNat 8 (sumOfLevels (s.readByteLevels data)) = b :=
    (congrArg (BitVec.ofNat 8 <| sumOfLevels ·) hlevels).trans (ofNat_sumOfLevels_bitsOf b)
  exact ⟨_, exec_readByte hb rfl hresult, rfl, rfl, henv⟩

end Sys2Proof.Machine
end

section
/-! CONFIGURE (spec 45_configure.md): the whole operation, from every idle state. -/

namespace Sys2Proof.Machine

variable {s : State}

/-- CONFIGURE is its acceptance and its completion, and both happen at the present time (R170). -/
theorem exec_configure {data : Byte} (hb : s.busy = false) :
    exec (.configure data) s = .next { s with
      op := .configure, pos := 0, bitcnt := 0, rsp := 0x00, rspValid := true
      irqSuspend := false, irqResume := false
      trace := s.trace ++
        [(s.now, .accept (0x300 + data.setWidth 10)), (s.now, .complete 0x00)] } := by
  have hexec : exec (.configure data) s =
      .next (s.accept (commandWord .configure data)).complete := by
    simpa only [operationOf_commandWord, State.operationBody] using
      exec_of_encode_command (i := .configure data) (c := commandWord .configure data) rfl hb
  have hrsp : (s.accept (commandWord .configure data)).response = 0x00 := by
    rw [State.response_eq, State.accept_op, operationOf_commandWord]
  rw [hexec, Host.Outcome.next.injEq]
  ext : 1
  case rsp => exact hrsp
  case trace =>
    rw [State.complete_trace, State.accept_trace, hrsp, commandWord_configure, List.append_assoc]
    rfl
  all_goals simp [shiftAtAcceptance, hb]

/-- Settles O47: `exec_configure` writes none of the fields that are to stay. -/
theorem configureIsANoOp : Obligations.ConfigureIsANoOp := by
  unfold Obligations.ConfigureIsANoOp
  intro s data hb
  exact ⟨_, exec_configure hb, hb, by simp⟩

end Sys2Proof.Machine
end

section
/-! The exceptional cases (spec 60_exceptions.md): what a step is refused for, and where the engine's
step changes `ie`. -/

namespace Sys2Proof.Machine

variable {s u : State}

/-! ### The refusals (R180, R199) -/

/-- A move that has a meaning only while idle is refused exactly while busy (R199). -/
theorem State.whenIdle_eq_refused_iff {r r' : Refusal} :
    s.whenIdle u r = .refused r' ↔ s.busy = true ∧ r' = r := by
  unfold State.whenIdle
  cases hb : s.busy <;> simp [eq_comm]

/-- The moves of an agent that are refused, each with its reason (log 17, log 18, log 19). -/
theorem agentMove_eq_refused_iff {m : Move} {r : Refusal} :
    agentMove m s = .refused r ↔
      (s.busy = true ∧ r = .timingChangedWhileBusy ∧ ∃ k n, m = .setDuration k n) ∨
      (s.busy = false ∧ r = .timingChangedWhileIdle ∧ ∃ k n, m = .setDuration k n) ∨
      (s.busy = true ∧ r = .hardwareResetWhileBusy ∧ m = .hardwareReset) ∨
      (s.busy = true ∧ r = .secondWriterOfIe ∧ (m = .hostSuspend ∨ m = .hostResume)) ∨
      (r = .secondWriterOfLine ∧ ∃ d, m = .secondWriter d) := by
  cases m with
  | engine => simp [agentMove]
  | present c => simp [agentMove]
  | hostSuspend => simp [agentMove, State.whenIdle_eq_refused_iff]
  | hostResume => simp [agentMove, State.whenIdle_eq_refused_iff]
  | interruption => simp [agentMove]
  | setDuration k n => cases hb : s.busy <;> simpa [agentMove, hb] using eq_comm
  | hardwareReset => simp [agentMove, State.whenIdle_eq_refused_iff]
  | secondWriter d => simpa [agentMove] using eq_comm

/-- A slot request clashes exactly with an operation in progress (log 11). -/
theorem State.fetch_eq_clash_iff : s.fetch = .clash ↔ s.busy = true ∧ s.slotReq.isSome = true := by
  unfold State.fetch
  cases s.busy with
  | true => cases s.slotReq <;> simp
  | false => cases s.slotReq <;> cases s.program <;> simp

/-- With no move pending only a slot request that clashes is refused: every instruction is answered
(R180). -/
theorem step_eq_refused_iff_of_schedule_nil {r : Refusal} (hs : s.schedule = []) :
    step s = .refused r ↔ s.fetch = .clash ∧ r = .slotRequestedWhileBusy := by
  cases hf : s.fetch with
  | run w =>
    obtain ⟨t, ht⟩ := exec_answers (decode w) (s.takeRequest w)
    simp [step_of_fetch_run hs hf, ht]
  | proceed => simp [step, hs, hf]
  | clash => simp [step, hs, hf, eq_comm]
  | idle => simp [step, hs, hf]

/-- Settles O25: `Fault` has no value, and a step is a pending move or what the engine fetches. -/
theorem onlyTheOutsideIsRefused : Obligations.OnlyTheOutsideIsRefused := by
  unfold Obligations.OnlyTheOutsideIsRefused
  refine fun s => ⟨nofun, fun r => ?_⟩
  cases hs : s.schedule with
  | nil =>
    rw [step_eq_refused_iff_of_schedule_nil hs, State.fetch_eq_clash_iff,
      and_right_comm, and_assoc]
    simp
  | cons m rest =>
    rw [step_of_schedule_cons hs, agentMove_eq_refused_iff]
    simp

/-! ### The interruption enable (R184) -/

/-- A micro-step that changes `ie` is one of the two that control interruptions. -/
theorem State.perform_ie_ne {bit : Bool} {m : MicroStep} (h : (s.perform bit m).ie ≠ s.ie) :
    (m = .irqSuspend ∧ (s.perform bit m).ie = false) ∨
    (m = .irqResume ∧ (s.perform bit m).ie = true) := by
  by_cases hsuspend : m = .irqSuspend
  · simp [hsuspend]
  · by_cases hresume : m = .irqResume
    · simp [hresume]
    · simp [hsuspend, hresume] at h

/-- Only the byte operations control interruptions: neither RESET nor CONFIGURE does (R122, R170). -/
theorem isByteOperation_of_irq_mem {o : Operation}
    (h : .irqSuspend ∈ microsequence o ∨ .irqResume ∈ microsequence o) :
    isByteOperation o = true := by
  cases o with
  | readByte => rfl
  | writeByte => rfl
  | reset => revert h; decide
  | configure => revert h; decide

/-- A step of the engine that changes `ie` is a micro-step of a busy engine: acceptance, completion
and idling leave it. -/
theorem State.engineStep_ie_ne (h : s.engineStep.ie ≠ s.ie) :
    ∃ m, s.busy = true ∧ (microsequence s.op)[s.pos.toNat]? = some m ∧
      s.engineStep.ie = (s.perform s.currentBit m).ie := by
  obtain ⟨m, hb, hm, heq⟩ | ⟨-, -, heq⟩ | ⟨-, -, heq⟩ | ⟨c, rest, -, -, heq⟩ | ⟨-, -, heq⟩ :=
    s.engineStep_cases <;> rw [heq] at h ⊢
  · exact ⟨m, hb, hm, rfl⟩
  all_goals exact absurd rfl h

/-- Settles O50: the micro-step is `IRQ_SUSPEND` or `IRQ_RESUME`, and a byte operation has each at one
position of its slots only. -/
theorem interruptionEnableChangesOnlyInSlots : Obligations.InterruptionEnableChangesOnlyInSlots := by
  unfold Obligations.InterruptionEnableChangesOnlyInSlots
  intro s h
  obtain ⟨m, hb, hm, hie⟩ := State.engineStep_ie_ne h
  have hlt := State.Inv.pos_lt hm
  have hmem := List.mem_of_getElem? hm
  rw [hie] at h ⊢
  obtain ⟨rfl, hafter⟩ | ⟨rfl, hafter⟩ := State.perform_ie_ne h
  · have hbyte := isByteOperation_of_irq_mem (.inl hmem)
    obtain ⟨hbegins, -⟩ := microsequence_irq_positions hbyte _ hlt _ hm
    exact ⟨hb, hbyte, hlt, .inl ⟨hbegins.mp rfl, hm, hafter⟩⟩
  · have hbyte := isByteOperation_of_irq_mem (.inr hmem)
    obtain ⟨-, hends⟩ := microsequence_irq_positions hbyte _ hlt _ hm
    exact ⟨hb, hbyte, hlt, .inr ⟨hends.mp rfl, hm, hafter⟩⟩

end Sys2Proof.Machine
end

section
/-! The hardware reset of an idle engine (spec 70_reset_and_hazards.md R210, 10_state.md R36). -/

namespace Sys2Proof.Machine

variable {s : State}

/-- While idle the platform's hardware reset is answered (R210, R211). -/
theorem agentMove_hardwareReset (hb : s.busy = false) :
    agentMove .hardwareReset s = .next s.hardwareReset := by
  simp [agentMove, State.whenIdle, hb]

/-- Settles O7: the step is the pending reset, which writes none of the fields that are to stay. -/
theorem hardwareResetOfIdleEngine : Obligations.HardwareResetOfIdleEngine := by
  unfold Obligations.HardwareResetOfIdleEngine
  intro s rest hb hs
  exact ⟨_, (step_of_schedule_cons hs).trans (agentMove_hardwareReset hb),
    rfl, rfl, rfl, rfl, rfl, rfl, rfl, rfl, rfl, rfl, rfl, rfl, rfl, rfl⟩

end Sys2Proof.Machine
end

section
/-! A slot as one critical section within its tolerance (spec 60_exceptions.md R184,
70_reset_and_hazards.md R232): its delays are performed with `ie` false, so none of them is
stretched (R111). -/

namespace Sys2Proof.Machine

variable {p : Prop} {j k k' n n' d d' : Nat} {s t u : State}

/-! ### A length within its tolerance -/

/-- The length `d` of `k` delays, nominally `n`, with `JITTER = j`: its lower bound, and its upper
bound where `p` holds (R111, R232). -/
def IsWithin (p : Prop) (j k n d : Nat) : Prop := n ≤ d + k * j ∧ (p → d ≤ n + k * j)

theorem IsWithin.add (h : IsWithin p j k n d) (h' : IsWithin p j k' n' d') :
    IsWithin p j (k + k') (n + n') (d + d') := by
  obtain ⟨hlow, hhigh⟩ := h
  obtain ⟨hlow', hhigh'⟩ := h'
  rw [IsWithin, Nat.add_mul]
  exact ⟨by omega, fun hp => by have := hhigh hp; have := hhigh' hp; omega⟩

theorem IsWithin.of_bounded (h : IsWithin True j k n d) : IsWithin p j k n d :=
  ⟨h.1, fun _ => h.2 trivial⟩

/-! ### The critical sections that a part of a run records -/

/-- From `s` to `t` the trace gains complete critical sections of the lengths `lengths`, whatever is
recorded after them. -/
def State.RecordsLengths (lengths : List Nat) (s t : State) : Prop :=
  ∃ seg, t.trace = s.trace ++ seg ∧
    ∀ rest, sectionLengths none (seg ++ rest) = lengths ++ sectionLengths none rest

theorem State.RecordsLengths.trans {l l' : List Nat} (hst : s.RecordsLengths l t)
    (htu : t.RecordsLengths l' u) : s.RecordsLengths (l ++ l') u := by
  obtain ⟨seg, htrace, hseg⟩ := hst
  obtain ⟨seg', htrace', hseg'⟩ := htu
  exact ⟨seg ++ seg', by rw [htrace', htrace, List.append_assoc],
    fun rest => by rw [List.append_assoc, hseg, hseg', List.append_assoc]⟩

/-- Only `IRQ_SUSPEND` begins a critical section. -/
theorem State.RecordsLengths.of_entry {i : Nat} {e : Event} (ht : t.trace = s.trace ++ [(i, e)])
    (he : e ≠ .irqSuspend) : s.RecordsLengths [] t := by
  refine ⟨_, ht, fun rest => ?_⟩
  cases e with
  | irqSuspend => exact absurd rfl he
  | _ => rfl

/-- RESET suspends nothing (R122). -/
theorem State.RecordsLengths.presenceSteps (s : State) : s.RecordsLengths [] s.presenceSteps :=
  (of_entry (s.setLine_trace .driveLow) nofun).trans <|
  (of_entry (State.delay_trace _ .resetPulse) nofun).trans <|
  (of_entry (State.setLine_trace _ .float) nofun).trans <|
  (of_entry (State.delay_trace _ .presenceWait) nofun).trans <|
  (of_entry (State.samplePresence_trace _) nofun).trans <|
  of_entry (State.delay_trace _ .postPresence) nofun

/-! ### The slots -/

/-- From `s` to `t` runs one critical section, nominally of `n` microseconds, within two times
`JITTER`. -/
def State.RunsSection (n : Nat) (s t : State) : Prop :=
  ∃ d, IsWithin True s.tolerance.jitter.val 2 n d ∧ t.now = s.now + d ∧ s.RecordsLengths [d] t

theorem State.RunsSection.writeSlot (s : State) (bit : Bool) :
    s.RunsSection (writeSlotTime s.cfg) (s.writeSlot bit) := by
  obtain ⟨a, b, hnow, htrace, ha, ha', hb, hb'⟩ := s.writeSlot_lengths bit
  refine ⟨a + b, ?_, by rw [hnow, Nat.add_assoc], _, htrace, fun rest => ?_⟩
  · rw [IsWithin, writeSlotTime]
    omega
  · cases bit <;> simp [sectionLengths, Nat.add_assoc]

theorem State.RunsSection.readSlot (s : State) :
    s.RunsSection (readSlotTime s.cfg) s.readSlot := by
  obtain ⟨a, b, hnow, htrace, ha, ha', hb, hb'⟩ := s.readSlot_lengths
  refine ⟨a + b, ?_, by rw [hnow, Nat.add_assoc], _, htrace, fun rest => ?_⟩
  · rw [IsWithin, readSlotTime]
    omega
  · simp [sectionLengths, Nat.add_assoc]

/-- A slot of a byte operation: one critical section, nominally of `slotTime`, that keeps the
durations and the tolerance (R30, R150). -/
structure IsSlot (slotTime : TimingConfig → Nat) (slot : State → State) : Prop where
  cfg : ∀ s, (slot s).cfg = s.cfg
  tolerance : ∀ s, (slot s).tolerance = s.tolerance
  runsSection : ∀ s : State, s.RunsSection (slotTime s.cfg) (slot s)

theorem IsSlot.writeCurrentBit : IsSlot writeSlotTime State.writeCurrentBit :=
  ⟨State.writeCurrentBit_cfg, State.writeCurrentBit_tolerance, fun s => .writeSlot s _⟩

theorem IsSlot.readSlot : IsSlot readSlotTime State.readSlot :=
  ⟨State.readSlot_cfg, State.readSlot_tolerance, .readSlot⟩

/-- A slot in any state, or an operation that an idle engine accepts, performs and completes. -/
theorem exec_ready_eq_next {i : Instr} (hb : i.isPublic = true → s.busy = false)
    (h : exec i s = .next t) :
    (∃ bit, i = .writeBit bit ∧ t = s.writeSlot bit) ∨
    (∃ ignored, i = .readBit ignored ∧ t = s.readSlot) ∨
    (∃ o data, requestedOperation i = some o ∧ (o = .writeByte → i = .writeByte data) ∧
      t = ((s.accept (commandWord o data)).operationBody o).complete) := by
  cases hi : i.isPublic with
  | true => exact exec_idle_eq_next (hb hi) h
  | false =>
    cases i with
    | writeBit bit => cases h; exact .inl ⟨bit, rfl, rfl⟩
    | readBit ignored => cases h; exact .inr (.inl ⟨ignored, rfl, rfl⟩)
    | _ => cases hi

end Sys2Proof.Machine
end

section
/-! How many critical sections an operation has, and how long each lasts, whatever the tolerance
and the environment (spec 60_exceptions.md R184, 70_reset_and_hazards.md R232). -/

namespace Sys2Proof.Machine

variable {P : Nat → Prop} {m m' : Nat} {s t u : State}

/-- From `s` to `t` the trace gains `m` complete critical sections, each of a length that
meets `P`. -/
def State.HasSections (P : Nat → Prop) (m : Nat) (s t : State) : Prop :=
  ∃ lengths, s.RecordsLengths lengths t ∧ lengths.length = m ∧ ∀ n ∈ lengths, P n

namespace State.HasSections

theorem of_no_section (h : s.RecordsLengths [] t) : s.HasSections P 0 t := ⟨[], h, rfl, nofun⟩

theorem refl (s : State) : s.HasSections P 0 s := of_no_section ⟨[], by simp, fun _ => rfl⟩

theorem trans (hst : s.HasSections P m t) (htu : t.HasSections P m' u) :
    s.HasSections P (m + m') u := by
  obtain ⟨l, hl, hlen, hP⟩ := hst
  obtain ⟨l', hl', hlen', hP'⟩ := htu
  exact ⟨l ++ l', hl.trans hl', by rw [List.length_append, hlen, hlen'],
    fun n hn => (List.mem_append.mp hn).elim (hP n) (hP' n)⟩

theorem accept (s : State) (c : CommandWord) : s.HasSections P 0 (s.accept c) :=
  of_no_section (.of_entry (s.accept_trace c) nofun)

theorem complete (s : State) : s.HasSections P 0 s.complete :=
  of_no_section (.of_entry s.complete_trace nofun)

theorem of_runsSection {n : Nat} (h : s.RunsSection n t) :
    s.HasSections (IsWithin True s.tolerance.jitter.val 2 n) 1 t := by
  obtain ⟨d, hd, -, hrec⟩ := h
  exact ⟨[d], hrec, rfl, by simpa using hd⟩

variable {slotTime : TimingConfig → Nat} {slot : State → State}

/-- The recovery delay lies outside the slot's section (R153). -/
theorem byteIteration (h : IsSlot slotTime slot) (s : State) :
    s.HasSections (IsWithin True s.tolerance.jitter.val 2 (slotTime s.cfg)) 1
      (State.byteIteration slot s) :=
  (of_runsSection (h.runsSection s)).trans
    (of_no_section (.of_entry (State.byteIteration_trace slot s) nofun))

theorem byteIterations (h : IsSlot slotTime slot) (m : Nat) : ∀ s : State,
    s.HasSections (IsWithin True s.tolerance.jitter.val 2 (slotTime s.cfg)) m
      (State.byteIterations slot m s) := by
  induction m with
  | zero => exact fun s => refl s
  | succ m ih =>
    intro s
    have hrest := ih (State.byteIteration slot s)
    rw [State.byteIteration_cfg, State.byteIteration_tolerance, h.cfg, h.tolerance] at hrest
    rw [State.byteIterations, Nat.add_comm m 1]
    exact (byteIteration h s).trans hrest

theorem operationBody {i : Instr} {o : Operation} (ho : requestedOperation i = some o) (s : State) :
    s.HasSections (IsWithin True s.tolerance.jitter.val 2 (sectionTime s.cfg i)) (slotCount i)
      (s.operationBody o) := by
  cases i with
  | reset data => cases ho; exact of_no_section (.presenceSteps s)
  | readByte data => cases ho; exact byteIterations .readSlot 8 s
  | writeByte value => cases ho; exact byteIterations .writeCurrentBit 8 s
  | configure data => cases ho; exact refl s
  | writeBit bit => cases ho
  | readBit ignored => cases ho

theorem exec {i : Instr} (hb : i.isPublic = true → s.busy = false)
    (h : Machine.exec i s = .next t) :
    s.HasSections (IsWithin True s.tolerance.jitter.val 2 (sectionTime s.cfg i))
      (slotCount i) t := by
  obtain ⟨bit, rfl, rfl⟩ | ⟨ignored, rfl, rfl⟩ | ⟨o, data, ho, -, rfl⟩ := exec_ready_eq_next hb h
  · exact of_runsSection (.writeSlot s bit)
  · exact of_runsSection (.readSlot s)
  · have := (accept s (commandWord o data)).trans
      ((operationBody ho (s.accept (commandWord o data))).trans (complete _))
    rwa [Nat.zero_add] at this

end State.HasSections

/-- Settles O48: an operation's critical sections are those of its slots, and the delays of a slot
are not stretched. -/
theorem criticalSectionsStayBounded : Obligations.CriticalSectionsStayBounded := by
  unfold Obligations.CriticalSectionsStayBounded
  intro s i hb
  obtain ⟨t, ht⟩ := exec_answers i s
  obtain ⟨lengths, ⟨seg, htrace, hseg⟩, hlen, hwithin⟩ := State.HasSections.exec hb ht
  have hlengths : sectionLengths none seg = lengths := by simpa [sectionLengths] using hseg []
  rw [← hlengths] at hlen hwithin
  refine ⟨t, seg, ht, htrace, hlen, fun n hn => ?_⟩
  obtain ⟨hlow, hhigh⟩ := hwithin n hn
  exact ⟨hlow, hhigh trivial⟩

end Sys2Proof.Machine
end

section
/-! How long each operation lasts (spec 70_reset_and_hazards.md R230, R232): the sum of its delays,
each within its tolerance (R111). -/

namespace Sys2Proof.Machine

variable {p : Prop} {j k k' n n' : Nat} {s t u : State}

/-- From `s` to `t` pass `k` delays, nominally `n` microseconds, with the upper bound where `p`
holds. -/
def State.Lasts (p : Prop) (j k n : Nat) (s t : State) : Prop :=
  ∃ d, t.now = s.now + d ∧ IsWithin p j k n d

namespace State.Lasts

theorem of_now_eq (h : t.now = s.now) : s.Lasts p j 0 0 t := ⟨0, h, by simp [IsWithin]⟩

theorem trans (hst : s.Lasts p j k n t) (htu : t.Lasts p j k' n' u) :
    s.Lasts p j (k + k') (n + n') u := by
  obtain ⟨d, hnow, hd⟩ := hst
  obtain ⟨d', hnow', hd'⟩ := htu
  exact ⟨d + d', by rw [hnow', hnow, Nat.add_assoc], hd.add hd'⟩

theorem of_runsSection (h : s.RunsSection n t) : s.Lasts p s.tolerance.jitter.val 2 n t := by
  obtain ⟨d, hd, hnow, -⟩ := h
  exact ⟨d, hnow, hd.of_bounded⟩

/-- Any delay has its upper bound where `STRETCH = none`. -/
theorem delay (s : State) (q : Duration) :
    s.Lasts (s.tolerance.stretch = .none) s.tolerance.jitter.val 1 (time s.cfg q) (s.delay q) :=
  ⟨_, s.delay_now q, by
    rw [IsWithin, Nat.one_mul]
    exact ⟨s.le_drawLength q, fun h => State.drawLength_le (.inl h) q⟩⟩

theorem presenceSteps (s : State) :
    s.Lasts (s.tolerance.stretch = .none) s.tolerance.jitter.val 3
      (time s.cfg .resetPulse + time s.cfg .presenceWait + time s.cfg .postPresence)
      s.presenceSteps := by
  have hpulse := delay (s.setLine .driveLow) .resetPulse
  have hwait := delay (((s.setLine .driveLow).delay .resetPulse).setLine .float) .presenceWait
  have hpost := delay s.beforePresence.samplePresence .postPresence
  rw [State.samplePresence_cfg, State.samplePresence_tolerance] at hpost
  exact ((hpulse.trans hwait).trans (of_now_eq s.beforePresence.samplePresence_now)).trans hpost

variable {slotTime : TimingConfig → Nat} {slot : State → State}

/-- An iteration is a slot and its recovery delay (R150). -/
theorem byteIteration (h : IsSlot slotTime slot) (s : State) :
    s.Lasts (s.tolerance.stretch = .none) s.tolerance.jitter.val 3
      (slotTime s.cfg + time s.cfg .recovery) (State.byteIteration slot s) := by
  have hrecovery := delay ((slot s).advance 7) .recovery
  rw [State.advance_cfg, State.advance_tolerance, h.cfg, h.tolerance] at hrecovery
  exact (of_runsSection (h.runsSection s)).trans hrecovery

theorem byteIterations (h : IsSlot slotTime slot) (m : Nat) : ∀ s : State,
    s.Lasts (s.tolerance.stretch = .none) s.tolerance.jitter.val (m * 3)
      (m * (slotTime s.cfg + time s.cfg .recovery)) (State.byteIterations slot m s) := by
  induction m with
  | zero =>
    intro s
    rw [Nat.zero_mul, Nat.zero_mul]
    exact of_now_eq rfl
  | succ m ih =>
    intro s
    have hrest := ih (State.byteIteration slot s)
    rw [State.byteIteration_cfg, State.byteIteration_tolerance, h.cfg, h.tolerance] at hrest
    rw [State.byteIterations, Nat.succ_mul, Nat.succ_mul, Nat.add_comm _ 3, Nat.add_comm (m * _)]
    exact (byteIteration h s).trans hrest

theorem operationBody {i : Instr} {o : Operation} (ho : requestedOperation i = some o) (s : State) :
    s.Lasts (s.tolerance.stretch = .none) s.tolerance.jitter.val (delayCount i)
      (nominalTime s.cfg i) (s.operationBody o) := by
  cases i with
  | reset data => cases ho; exact presenceSteps s
  | readByte data => cases ho; exact byteIterations .readSlot 8 s
  | writeByte value => cases ho; exact byteIterations .writeCurrentBit 8 s
  | configure data => cases ho; exact of_now_eq rfl
  | writeBit bit => cases ho
  | readBit ignored => cases ho

/-- Acceptance and completion take no time (R33, R34). -/
theorem exec {i : Instr} (hb : i.isPublic = true → s.busy = false)
    (h : Machine.exec i s = .next t) :
    s.Lasts (s.tolerance.stretch = .none ∨ i.isPublic = false) s.tolerance.jitter.val (delayCount i)
      (nominalTime s.cfg i) t := by
  obtain ⟨bit, rfl, rfl⟩ | ⟨ignored, rfl, rfl⟩ | ⟨o, data, ho, -, rfl⟩ := exec_ready_eq_next hb h
  · exact of_runsSection (.writeSlot s bit)
  · exact of_runsSection (.readSlot s)
  · have hpublic : i.isPublic = true := by
      cases i with
      | writeBit bit => cases ho
      | readBit ignored => cases ho
      | _ => rfl
    obtain ⟨d, hnow, hd⟩ := operationBody ho (s.accept (commandWord o data))
    exact ⟨d, hnow, by simpa [hpublic] using hd⟩

end State.Lasts

/-- Settles O28: an operation lasts as long as its delays, and those of a slot are not stretched. -/
theorem durationsWithinTolerance : Obligations.DurationsWithinTolerance := by
  unfold Obligations.DurationsWithinTolerance
  intro s i hb
  obtain ⟨t, ht⟩ := exec_answers i s
  obtain ⟨d, hnow, hlow, hhigh⟩ := State.Lasts.exec hb ht
  exact ⟨t, ht, by omega, fun hp => by have := hhigh hp; omega⟩

/-- Settles O27: with `JITTER = 0` and `STRETCH = none` the two bounds of `durationsWithinTolerance`
meet. -/
theorem nominalDurations : Obligations.NominalDurations := by
  unfold Obligations.NominalDurations
  intro s i hnominal hb
  obtain ⟨t, ht, hlow, hhigh⟩ := durationsWithinTolerance s i hb
  have hjitter : s.tolerance.jitter.val = 0 := by rw [hnominal]; rfl
  rw [hjitter, Nat.mul_zero, Nat.add_zero] at hlow hhigh
  exact ⟨t, ht, le_antisymm (hhigh (.inl (by rw [hnominal]; rfl))) hlow⟩

end Sys2Proof.Machine
end
